-- ==== Sys2Proof/Word.lean ====
section
/-!
DEFINITION. Word.lean: the widths of the block (spec 00_scope.md R6, R8, R9; 30_encoding.md R70). A value is a bit
pattern; `+`, `-` and `*` on it are taken modulo 2^32, and `toNat` is the spec's `uint`.
-/

namespace Sys2Proof

/-- A register, a data cell, an immediate, the pc or an address: `XLEN` = 32 bits (R6). -/
abbrev Word := BitVec 32

/-- One instruction-store entry: `INSN_BITS` = 64 bits (R6, R70). -/
abbrev InsnWord := BitVec 64

/-- A register field of an instruction word: 4 bits, so it names R0 to R15 and nothing else (R20, R63). -/
abbrev Reg := BitVec 4

/-- A slot of the register file: R0 to R15 are slots 0 to 15, the condition code is slot 16 (R20, R21). -/
abbrev Slot := Fin 17

/-- The slot of the condition-code register CC (R21). -/
abbrev ccSlot : Slot := 16

end Sys2Proof
end

