-- ==== Sys2Proof/Config.lean ====
section
/-!
DEFINITION. Config.lean: the parameters a model takes as arguments (spec 00_scope.md R6). The settled ones are constants;
the OPEN ones and the launch inputs are the record `Launch`, which State carries unchanged through a run, so that a
statement about every state holds for every value of them (notes/assumptions/1.md). Nothing here is a free value: the
spec leaves none (R5, R220).
-/

namespace Sys2Proof

/-- `INSN_STRIDE`: what Fetch adds to pc for each instruction (R6, R79). -/
def insnStride : Nat := 4

/-- `DUMP_CELLS`: the data-memory cells of the final report (R6, R211). -/
def dumpCells : Nat := 100

/-- `MODE`: silent or verbose trace; no effect on the state (R6, R212). -/
inductive TraceMode where
  | silent | verbose
deriving DecidableEq, Repr

/-- The OPEN parameters and launch inputs of R6, fixed for a run. -/
structure Launch where
  /-- `CODE_BASE`, the address of the first instruction and the reset pc (R6, R221). -/
  codeBase : Nat
  /-- `IMEM_CAP`, the capacity of the instruction store in entries (R6, R11). -/
  imemCap : Nat
  /-- `DMEM_CELLS`, the number of data-memory cells (R6, R26). -/
  dmemCells : Nat
  /-- `MAX_CYCLES`, the caller's bound on cycles (R6, R130). -/
  maxCycles : Nat
  /-- `FLUSH_RESTORES_VALID` (R6, R127). -/
  flushRestoresValid : Bool
  /-- `MODE` (R6). -/
  mode : TraceMode
deriving DecidableEq, Repr

/-- DESIGN CHOICE, unsafe (notes/assumptions/1.md): the values `State.reset` carries for the parameters the spec leaves
OPEN. All but `imemCap` are the values of the spec's test vectors (95_test_vectors.md, Conventions);
`flushRestoresValid` is the spec's own default (R6). -/
def Launch.standard : Launch :=
  { codeBase := 4000, imemCap := 65536, dmemCells := 4096, maxCycles := 200, flushRestoresValid := true, mode := .silent }

end Sys2Proof
end

