-- ==== Sys2Proof/Syntax.lean ====
section
/-!
DEFINITION. Syntax.lean: the instruction set, one constructor for each row of spec/opcode_table.json (30_encoding.md
R73, R75). A constructor carries the fields its class uses and no others; the ignored fields of the word stay in the
stage latch (R71) and have no meaning. The class table of R74 stands beside it.
-/

namespace Sys2Proof

/-- The 15 instructions (R2, R73), each with the fields of R75 in the order of the assembler syntax (R80). -/
inductive Instr where
  | movc (rd : Reg) (imm : Word)
  | add (rd rs1 rs2 : Reg)
  | sub (rd rs1 rs2 : Reg)
  | mul (rd rs1 rs2 : Reg)
  | and (rd rs1 rs2 : Reg)
  | or (rd rs1 rs2 : Reg)
  | exOr (rd rs1 rs2 : Reg)
  | load (rd rs1 : Reg) (imm : Word)
  | store (rs1 rs2 : Reg) (imm : Word)
  | ldr (rd rs1 rs2 : Reg)
  | str (rs1 rs2 rs3 : Reg)
  | bz (imm : Word)
  | bnz (imm : Word)
  | jump (rs1 : Reg) (imm : Word)
  | halt
deriving DecidableEq, Repr

/-- The instruction classes of R74; `illegal` and `endOfCode` are the two classes of latch contents that are no
instruction (R77, R78). -/
inductive InsnClass where
  | movc | arith | load | ldr | store | str | branch | jump | halt | illegal | endOfCode
deriving DecidableEq, Repr

/-- The class of each instruction (R74, column "members"). -/
def Instr.cls : Instr → InsnClass
  | .movc _ _ => .movc
  | .add _ _ _ => .arith
  | .sub _ _ _ => .arith
  | .mul _ _ _ => .arith
  | .and _ _ _ => .arith
  | .or _ _ _ => .arith
  | .exOr _ _ _ => .arith
  | .load _ _ _ => .load
  | .store _ _ _ => .store
  | .ldr _ _ _ => .ldr
  | .str _ _ _ => .str
  | .bz _ => .branch
  | .bnz _ => .branch
  | .jump _ _ => .jump
  | .halt => .halt

/-- R74, column "writes rd". -/
def InsnClass.writesRd : InsnClass → Bool
  | .movc | .arith | .load | .ldr => true
  | .store | .str | .branch | .jump | .halt | .illegal | .endOfCode => false

/-- R74, column "writes CC". -/
def InsnClass.writesCc : InsnClass → Bool
  | .arith => true
  | .movc | .load | .ldr | .store | .str | .branch | .jump | .halt | .illegal | .endOfCode => false

/-- R74, column "branchy": BZ, BNZ and JUMP, what the HALT contention checks look for. -/
def InsnClass.branchy : InsnClass → Bool
  | .branch | .jump => true
  | .movc | .arith | .load | .ldr | .store | .str | .halt | .illegal | .endOfCode => false

/-- The destination register an instruction writes, if its class writes one (R74, R75). -/
def Instr.dest : Instr → Option Reg
  | .movc rd _ => some rd
  | .add rd _ _ => some rd
  | .sub rd _ _ => some rd
  | .mul rd _ _ => some rd
  | .and rd _ _ => some rd
  | .or rd _ _ => some rd
  | .exOr rd _ _ => some rd
  | .load rd _ _ => some rd
  | .ldr rd _ _ => some rd
  | .store _ _ _ => none
  | .str _ _ _ => none
  | .bz _ => none
  | .bnz _ => none
  | .jump _ _ => none
  | .halt => none

end Sys2Proof
end

