-- ==== Sys2Proof/WellFormed.lean ====
section
/-!
DEFINITION. WellFormed.lean: what is well formed and what is not.

A term of `Instr` needs no check of its own: every operand has exactly the width of its field (4-bit registers, 32-bit
immediates), so each term is one the encoding admits, and CC cannot be named (20_memory.md R63: "Register indices. These
cannot be out of range"). What can be ill formed is a 64-bit word (30_encoding.md R76, R77) and the data a run is
launched with (00_scope.md R6, R11).
-/

namespace Sys2Proof

/-- The opcode field of a word is assigned: 0x01 to 0x0F (R73, R77). -/
def opcodeAssigned (w : InsnWord) : Bool :=
  decide (1 ≤ (w.extractLsb' 56 8).toNat) && decide ((w.extractLsb' 56 8).toNat ≤ 15)

/-- The reserved field of a word, bits [39:32], is 0 (R70, R76). -/
def reservedClear (w : InsnWord) : Bool := w.extractLsb' 32 8 == 0#8

/-- A word that encodes an instruction: not ILLEGAL (R74, R76, R77). -/
def wordOk (w : InsnWord) : Bool := opcodeAssigned w && reservedClear w

/-- The constraints of R6 on the parameters, for a program of `n` words: `0 < CODE_BASE`,
`END_ADDR + 64 <= 2^32` with `END_ADDR = CODE_BASE + 4*n`, and `100 <= DMEM_CELLS <= 2^31`. -/
def Launch.parametersOk (p : Launch) (n : Nat) : Bool :=
  decide (0 < p.codeBase) && decide (p.codeBase + insnStride * n + 64 ≤ 2 ^ 32) &&
    decide (100 ≤ p.dmemCells) && decide (p.dmemCells ≤ 2 ^ 31)

/-- R11: "A program of more than IMEM_CAP records is a loader failure". -/
def Launch.programFits (p : Launch) (n : Nat) : Bool := decide (n ≤ p.imemCap)

/-- A launch the host may start: parameters in range and a program that fits. -/
def Launch.ok (p : Launch) (n : Nat) : Bool := p.parametersOk n && p.programFits n

end Sys2Proof
end

