-- ==== Sys2Proof/Decode.lean ====
section
/-!
DEFINITION. Decode.lean: the instruction word (spec 30_encoding.md R70 to R79): splitting it into fields, reading an
instruction from the fields or rejecting them by name, and the encoder.
-/

namespace Sys2Proof

/-- The fields of the one instruction format (R70), also the fields a stage latch keeps of a fetched word (R28). -/
structure Fields where
  op : BitVec 8
  rd : Reg
  rs1 : Reg
  rs2 : Reg
  rs3 : Reg
  resv : BitVec 8
  imm : Word
deriving DecidableEq, Repr

/-- All fields 0: what an empty latch and an END latch hold (R28, R123). -/
def Fields.zero : Fields := { op := 0, rd := 0, rs1 := 0, rs2 := 0, rs3 := 0, resv := 0, imm := 0 }

/-- Fetch's split of a word (R70, R71): `op` [63:56], `rd` [55:52], `rs1` [51:48], `rs2` [47:44], `rs3` [43:40],
`resv` [39:32], `imm` [31:0]. -/
def splitWord (w : InsnWord) : Fields :=
  { op := w.extractLsb' 56 8, rd := w.extractLsb' 52 4, rs1 := w.extractLsb' 48 4, rs2 := w.extractLsb' 44 4,
    rs3 := w.extractLsb' 40 4, resv := w.extractLsb' 32 8, imm := w.extractLsb' 0 32 }

/-- The word with the given fields (R70), the high field first. -/
def joinFields (f : Fields) : InsnWord :=
  f.op ++ (f.rd ++ (f.rs1 ++ (f.rs2 ++ (f.rs3 ++ (f.resv ++ f.imm)))))

/-- Why a word is ILLEGAL (R76, R77). -/
inductive DecodeError where
  /-- `resv = w[39:32] != 0` (R76), whatever the opcode. -/
  | reservedBits (resv : BitVec 8)
  /-- `op` is 0x00 or in 0x10 to 0xFF (R77). -/
  | unassignedOpcode (op : BitVec 8)
deriving DecidableEq, Repr

/-- The instruction of the fields of a word, or the name of what makes the word ILLEGAL (R73, R75, R76, R77). Fields the
class does not use are ignored. -/
def decodeFields (f : Fields) : Except DecodeError Instr :=
  if f.resv ≠ 0 then .error (.reservedBits f.resv)
  else
    match f.op.toNat with
    | 0x01 => .ok (.movc f.rd f.imm)
    | 0x02 => .ok (.add f.rd f.rs1 f.rs2)
    | 0x03 => .ok (.sub f.rd f.rs1 f.rs2)
    | 0x04 => .ok (.mul f.rd f.rs1 f.rs2)
    | 0x05 => .ok (.and f.rd f.rs1 f.rs2)
    | 0x06 => .ok (.or f.rd f.rs1 f.rs2)
    | 0x07 => .ok (.exOr f.rd f.rs1 f.rs2)
    | 0x08 => .ok (.load f.rd f.rs1 f.imm)
    | 0x09 => .ok (.store f.rs1 f.rs2 f.imm)
    | 0x0A => .ok (.ldr f.rd f.rs1 f.rs2)
    | 0x0B => .ok (.str f.rs1 f.rs2 f.rs3)
    | 0x0C => .ok (.bz f.imm)
    | 0x0D => .ok (.bnz f.imm)
    | 0x0E => .ok (.jump f.rs1 f.imm)
    | 0x0F => .ok .halt
    | _ => .error (.unassignedOpcode f.op)

/-- The decoder on a 64-bit word; total. -/
def decodeWord (w : InsnWord) : Except DecodeError Instr := decodeFields (splitWord w)

/-- The instruction of a word, forgetting why an ILLEGAL word is rejected. -/
def decode? (w : InsnWord) : Option Instr :=
  match decodeWord w with
  | .ok i => some i
  | .error _ => none

/-- The bits of an opcode-table row: one 64-bit word, bit 0 its least significant bit (R8, R70). Bits from `nbits` up
are 0. -/
def decodeTableWord (nbits w : Nat) : Option Instr := decode? (BitVec.ofNat 64 (w % 2 ^ nbits))

/-- The fields of an instruction's word: its opcode number (R73), the fields it uses (R75), 0 elsewhere (R75: "the
assembler writes 0 there"). -/
def encodeFields : Instr → Fields
  | .movc rd imm => { Fields.zero with op := 0x01, rd := rd, imm := imm }
  | .add rd rs1 rs2 => { Fields.zero with op := 0x02, rd := rd, rs1 := rs1, rs2 := rs2 }
  | .sub rd rs1 rs2 => { Fields.zero with op := 0x03, rd := rd, rs1 := rs1, rs2 := rs2 }
  | .mul rd rs1 rs2 => { Fields.zero with op := 0x04, rd := rd, rs1 := rs1, rs2 := rs2 }
  | .and rd rs1 rs2 => { Fields.zero with op := 0x05, rd := rd, rs1 := rs1, rs2 := rs2 }
  | .or rd rs1 rs2 => { Fields.zero with op := 0x06, rd := rd, rs1 := rs1, rs2 := rs2 }
  | .exOr rd rs1 rs2 => { Fields.zero with op := 0x07, rd := rd, rs1 := rs1, rs2 := rs2 }
  | .load rd rs1 imm => { Fields.zero with op := 0x08, rd := rd, rs1 := rs1, imm := imm }
  | .store rs1 rs2 imm => { Fields.zero with op := 0x09, rs1 := rs1, rs2 := rs2, imm := imm }
  | .ldr rd rs1 rs2 => { Fields.zero with op := 0x0A, rd := rd, rs1 := rs1, rs2 := rs2 }
  | .str rs1 rs2 rs3 => { Fields.zero with op := 0x0B, rs1 := rs1, rs2 := rs2, rs3 := rs3 }
  | .bz imm => { Fields.zero with op := 0x0C, imm := imm }
  | .bnz imm => { Fields.zero with op := 0x0D, imm := imm }
  | .jump rs1 imm => { Fields.zero with op := 0x0E, rs1 := rs1, imm := imm }
  | .halt => { Fields.zero with op := 0x0F }

/-- The word of an instruction (R70, R73). -/
def encode (i : Instr) : InsnWord := joinFields (encodeFields i)

end Sys2Proof
end

