-- ==== Sys2Proof/Machine/State.lean ====
section
/-!
DEFINITION. Machine/State.lean: every piece of state the spec gives the block (spec 10_state.md R20 to R36), as plain
data, and the state after reset (70_reset_and_hazards.md R220).
-/

namespace Sys2Proof.Machine

/-- The seven stages, upstream to downstream, numbered 0 to 6 by R27. -/
inductive Stage where
  | f | drf | ex1 | ex2 | mem1 | mem2 | wb
deriving DecidableEq, Repr

/-- The latch of one stage (R28). A latch is empty exactly when its `pc` is 0 (R29). -/
structure Latch where
  /-- The address of the instruction in the latch; 0 = empty. -/
  pc : Word
  /-- `op`, `rd`, `rs1`, `rs2`, `rs3`, `resv` and `imm` as Fetch split them (R71). -/
  fields : Fields
  rs1Value : Word
  rs2Value : Word
  rs3Value : Word
  /-- The scratch result: ALU result, MOVC value, JUMP target, loaded value. -/
  buffer : Word
  /-- The effective data address. -/
  memAddress : Word
  stalled : Bool
  /-- Always false (R134). -/
  busy : Bool
  /-- The display flag of R133. -/
  isEmpty : Bool
  /-- The completion marker: the last stage that processed this content; `none` is the spec's `NONE` (R27, R30). -/
  done : Option Stage
deriving DecidableEq, Repr

/-- The latch contents after reset (R28, R220). -/
def Latch.reset : Latch :=
  { pc := 0, fields := Fields.zero, rs1Value := 0, rs2Value := 0, rs3Value := 0, buffer := 0, memAddress := 0,
    stalled := false, busy := false, isEmpty := true, done := none }

/-- "Each stage has exactly one latch `L[s]`" (R27). -/
structure Latches where
  f : Latch
  drf : Latch
  ex1 : Latch
  ex2 : Latch
  mem1 : Latch
  mem2 : Latch
  wb : Latch
deriving DecidableEq, Repr

/-- Every latch as reset leaves it (R220). -/
def Latches.reset : Latches :=
  { f := Latch.reset, drf := Latch.reset, ex1 := Latch.reset, ex2 := Latch.reset, mem1 := Latch.reset,
    mem2 := Latch.reset, wb := Latch.reset }

/-- The data memory (R26) as a list of (cell index, cell) pairs: indices strictly rising, no cell listed that equals
what an unlisted one reads as, 0. A cell is 32 bits and has no parts (20_memory.md R51, R52); DESIGN CHOICE, safe
(notes/assumptions/5.md). -/
abbrev DMem := List (Nat × Word)

/-- `halt_sev` (R31): 0 none, 1 weak (HALT in DRF), 2 strong (HALT in EX2). -/
inductive HaltSev where
  | none | weak | strong
deriving DecidableEq, Repr

/-- `stop_req` (R32), set by WB. -/
inductive StopReq where
  | none | halt | drain
deriving DecidableEq, Repr

/-- `run_state` (R35). -/
inductive RunState where
  | running | stopped
deriving DecidableEq, Repr

/-- The conditions that end a run or prevent it (60_exceptions.md R200), with the information each records (R200, D38).
The first three are the block's own faults: the unit named raises them and the run ends in a NEXT state that records them
in `outcome` (R204; notes/assumptions/6.md). The last two are where `step` answers `.fault`: no cycle runs (R214). -/
inductive Fault where
  /-- Raised by Fetch at a pc below `CODE_BASE` or off the 4-unit grid (R201). Safe: it is the spec's own check. -/
  | fetchOutOfRange (pc : Word)
  /-- Raised by MEM2 for a cell index `>= DMEM_CELLS` (R202). Safe: it is the spec's own check. -/
  | dataOutOfRange (pc address : Word)
  /-- Raised by WB for a latch of class ILLEGAL (R203). Safe: it is the spec's own check. -/
  | illegalInstruction (pc : Word) (op resv : BitVec 8)
  /-- Answered by `step` for a program of more than `IMEM_CAP` records (R11, R214). Safe: no such run exists. -/
  | loadFailure
  /-- Answered by `step` for launch parameters outside the ranges of R6 (R214: no cycle runs). Safe: no such block
  exists. -/
  | parametersOutOfRange
deriving DecidableEq, Repr

/-- Why the machine has no meaning for an instruction. -/
inductive Refusal where
  /-- Answered by an arm of `exec` for an instruction without a meaning. Safe. Every instruction of this model has its
  meaning, so no arm answers it. -/
  | notModelled (mnemonic : String)
deriving DecidableEq, Repr

/-- `outcome` (R35, R213). -/
inductive RunOutcome where
  | none | halted | drained | cycleBound
  | fault (reason : Fault)
deriving DecidableEq, Repr

/-- The state of the machine: the launch data (R6, R25) and every piece of state of R20 to R35. `S0` and `unit` are the
model's own (notes/assumptions/3.md and 4.md). -/
structure State where
  /-- The parameters and launch inputs of R6; no step changes them. -/
  launch : Launch
  /-- `IMEM[0..N-1]`; `N` is its length (R25). No step changes it (R61). -/
  imem : List InsnWord
  /-- The 17 slots of the register file: R0 to R15, then CC (R20, R21). -/
  x : Vector Word 17
  /-- The validity bits `V[0]` to `V[16]`; true is VALID (R22). -/
  valid : Vector Bool 17
  /-- The address Fetch reads next (R24). -/
  pc : Word
  /-- `DMEM` (R26). -/
  dmem : DMem
  /-- The stage latches `L[F]` to `L[WB]` (R27, R28). -/
  L : Latches
  flushPending : Bool
  flushTarget : Word
  haltSev : HaltSev
  /-- The content EX1 processed in this cycle (R32, R114). -/
  e1Done : Option Latch
  stopReq : StopReq
  /-- The cycle counter (R33). -/
  clock : Nat
  /-- The completed-instruction counter (R34). -/
  insCompleted : Nat
  runState : RunState
  outcome : RunOutcome
  /-- The MODEL's own: the latches as they stood at the start of the cycle, the spec's snapshot `S0` (R100). -/
  S0 : Latches
  /-- The MODEL's own: the stage unit that is running within the cycle (R100 step 2). -/
  unit : Stage
deriving DecidableEq, Repr

/-- The machine after reset (R220) with nothing loaded: `N = 0`, the parameters of `Launch.standard`. -/
def State.reset : State :=
  { launch := Launch.standard
    imem := []
    x := Vector.replicate 17 0
    valid := Vector.replicate 17 true
    pc := BitVec.ofNat 32 Launch.standard.codeBase
    dmem := []
    L := Latches.reset
    flushPending := false
    flushTarget := 0
    haltSev := .none
    e1Done := none
    stopReq := .none
    clock := 0
    insCompleted := 0
    runState := .running
    outcome := .none
    S0 := Latches.reset
    unit := .f }

end Sys2Proof.Machine
end

