-- ==== Sys2Proof/Machine/Ops.lean ====
section
/-!
DEFINITION. Machine/Ops.lean: the named operations over the register file, the memories and the latches, the class of a
latch's content, the stage-advance protocol, and raising a fault.
-/

namespace Sys2Proof.Machine

/-! ### The register file -/

/-- The slot a 4-bit register field names: R0 to R15 (R20). -/
def regSlot (r : Reg) : Slot := ⟨r.toNat, by have := r.isLt; omega⟩

/-- `x[i]` (R10). -/
def State.readX (s : State) (i : Slot) : Word := s.x[i.val]

/-- `x[i] <- v` (R10). -/
def State.writeX (s : State) (i : Slot) (v : Word) : State := { s with x := s.x.set i.val v }

/-- `V[i]` (R10). -/
def State.readV (s : State) (i : Slot) : Bool := s.valid[i.val]

/-- `V[i] <- b` (R10). -/
def State.writeV (s : State) (i : Slot) (b : Bool) : State := { s with valid := s.valid.set i.val b }

/-! ### The code space -/

/-- `N` (R25). -/
def State.progLen (s : State) : Nat := s.imem.length

/-- `END_ADDR = CODE_BASE + 4*N` (R6, R25). -/
def State.endAddr (s : State) : Nat := s.launch.codeBase + insnStride * s.progLen

/-- The launch data satisfy R6 and R11. -/
def State.launchOk (s : State) : Bool := s.launch.ok s.progLen

/-- A code address Fetch accepts: `CODE_BASE + 4k` (R53, R124). -/
def State.codeAddrOk (s : State) (a : Word) : Bool :=
  decide (s.launch.codeBase ≤ a.toNat) && decide ((a.toNat - s.launch.codeBase) % insnStride = 0)

/-- `IMEM[(a - CODE_BASE)/4]` (R25, R50); 0 is never read, since the index is below `N` where this is used. -/
def State.imemAt (s : State) (a : Word) : InsnWord :=
  (s.imem[(a.toNat - s.launch.codeBase) / insnStride]?).getD 0

/-- Entry `k` of a program replaced; a program too short is grown with zero words. -/
def placeWord : List InsnWord → Nat → InsnWord → List InsnWord
  | [], 0, w => [w]
  | _ :: t, 0, w => w :: t
  | [], k + 1, w => 0 :: placeWord [] k w
  | a :: t, k + 1, w => a :: placeWord t k w

/-- `IMEM[(pc - CODE_BASE)/4]` replaced by the loader, the store grown to hold it (R11, R25). -/
def State.placeAtPc (s : State) (w : InsnWord) : State :=
  { s with imem := placeWord s.imem ((s.pc.toNat - s.launch.codeBase) / insnStride) w }

/-! ### The data memory -/

/-- What an unlisted cell reads as: the reset value of every cell (R26). -/
def dmemDefault : Word := 0

/-- One cell of the memory list. -/
def DMem.read : DMem → Nat → Word
  | [], _ => dmemDefault
  | (b, w) :: t, a => if b = a then w else DMem.read t a

/-- Put one cell into the memory list, keeping its canonical form: writing the default removes the entry. -/
def DMem.write : DMem → Nat → Word → DMem
  | [], a, v => if v = dmemDefault then [] else [(a, v)]
  | (b, w) :: t, a, v =>
    if b < a then (b, w) :: DMem.write t a v
    else if b = a then (if v = dmemDefault then t else (a, v) :: t)
    else (if v = dmemDefault then (b, w) :: t else (a, v) :: (b, w) :: t)

/-- Every listed index is above `lo` (where there is one), indices rise strictly and no listed cell is the default. -/
def DMem.wfAbove : Option Nat → DMem → Bool
  | _, [] => true
  | lo, (b, w) :: t => (match lo with | none => true | some k => decide (k < b)) && (w != dmemDefault) && DMem.wfAbove (some b) t

/-- The canonical form of the memory list. -/
def DMem.wf (m : DMem) : Bool := DMem.wfAbove none m

/-- The range check of R63 and R64: `uint(addr) < DMEM_CELLS`. -/
def State.dataAddrOk (s : State) (a : Word) : Bool := decide (a.toNat < s.launch.dmemCells)

/-- The cell at index `a`, without the range check. -/
def State.cell (s : State) (a : Word) : Word := DMem.read s.dmem a.toNat

/-- The cell at index `a` written, without the range check. -/
def State.setCell (s : State) (a v : Word) : State := { s with dmem := DMem.write s.dmem a.toNat v }

/-! ### Raising a fault

The block has no trap entry, no handler and no trap return (60_exceptions.md R208, R209): what a raise does is R204, and
nothing undoes it. -/

/-- `raise <Fault>(info)` (R10, R204): `run_state <- STOPPED`, `outcome <- FAULT`, and nothing else. The cycle runs no
later unit, no reconciliation and no clock increment after it (Machine/Cycle.lean). -/
def State.raise (s : State) (r : Fault) : State := { s with runState := .stopped, outcome := .fault r }

/-- `MemRead(addr, 1)` (R64) for the instruction at `pcOf`, handing the cell to `use`; raises DataOutOfRange (R202). -/
def State.memRead (s : State) (pcOf a : Word) (use : Word → State) : State :=
  if s.dataAddrOk a then use (s.cell a) else s.raise (.dataOutOfRange pcOf a)

/-- `MemWrite(addr, 1, v)` (R64) for the instruction at `pcOf`, going on with `after`; raises DataOutOfRange (R202). -/
def State.memWrite (s : State) (pcOf a v : Word) (after : State → State) : State :=
  if s.dataAddrOk a then after (s.setCell a v) else s.raise (.dataOutOfRange pcOf a)

/-! ### Stages and latches -/

/-- The stage immediately upstream; F has none (R27). -/
def Stage.upstream : Stage → Option Stage
  | .f => none
  | .drf => some .f
  | .ex1 => some .drf
  | .ex2 => some .ex1
  | .mem1 => some .ex2
  | .mem2 => some .mem1
  | .wb => some .mem2

/-- The stage immediately downstream; WB has none (R27, R103). -/
def Stage.downstream : Stage → Option Stage
  | .f => some .drf
  | .drf => some .ex1
  | .ex1 => some .ex2
  | .ex2 => some .mem1
  | .mem1 => some .mem2
  | .mem2 => some .wb
  | .wb => none

/-- The latch of one stage. -/
def Latches.get (L : Latches) : Stage → Latch
  | .f => L.f
  | .drf => L.drf
  | .ex1 => L.ex1
  | .ex2 => L.ex2
  | .mem1 => L.mem1
  | .mem2 => L.mem2
  | .wb => L.wb

/-- The latches with one of them replaced. -/
def Latches.set (L : Latches) : Stage → Latch → Latches
  | .f, l => { L with f := l }
  | .drf, l => { L with drf := l }
  | .ex1, l => { L with ex1 := l }
  | .ex2, l => { L with ex2 := l }
  | .mem1, l => { L with mem1 := l }
  | .mem2, l => { L with mem2 := l }
  | .wb, l => { L with wb := l }

/-- `L[u]` (R10). -/
def State.latch (s : State) (u : Stage) : Latch := s.L.get u

/-- `L[u] <- l` (R10). -/
def State.setLatch (s : State) (u : Stage) (l : Latch) : State := { s with L := s.L.set u l }

/-- The latch of the stage whose unit is running. -/
def State.here (s : State) : Latch := s.latch s.unit

/-- The latch as empty: only its `pc` says so (R29). -/
def Latch.clearPc (l : Latch) : Latch := { l with pc := 0 }

/-- What reconciliation does to a latch it empties: `pc <- 0; stalled <- 0` (R125, R126). -/
def Latch.flush (l : Latch) : Latch := { l with pc := 0, stalled := false }

/-- Copy-forward copies every field except `is_empty` (R103, R133). -/
def Latch.copyOver (src dst : Latch) : Latch := { src with isEmpty := dst.isEmpty }

/-- The latch of a stage `u` from DRF down is fresh: not empty, and handed over by the stage upstream and not yet
processed (R30). F is no stage of R30. -/
def Latch.fresh (u : Stage) (l : Latch) : Bool :=
  match u.upstream with
  | none => false
  | some p => l.pc != 0 && l.done == some p

/-- The occupant of a stage in the cycle: the start-of-cycle latch, if fresh (R30, R112). -/
def State.occ (s : State) (u : Stage) : Option Latch :=
  if (s.S0.get u).fresh u then some (s.S0.get u) else none

/-! ### What a latch holds -/

/-- The content of a non-empty latch: an instruction, an ILLEGAL word (R76, R77) or no instruction at all, at or past the
end of the program (R78). -/
inductive Content where
  | instr (i : Instr)
  | illegal
  | endOfCode
deriving DecidableEq, Repr

/-- The content of a latch: END first, then ILLEGAL, then the instruction of its fields (R74, "computed as follows"). -/
def State.content (s : State) (l : Latch) : Content :=
  if s.endAddr ≤ l.pc.toNat then .endOfCode
  else
    match decodeFields l.fields with
    | .ok i => .instr i
    | .error _ => .illegal

/-- The class of a content (R74). -/
def Content.cls : Content → InsnClass
  | .instr i => i.cls
  | .illegal => .illegal
  | .endOfCode => .endOfCode

/-- `class(l)` (R74). -/
def State.cls (s : State) (l : Latch) : InsnClass := (s.content l).cls

/-- The class of a stage's occupant, if it has one. -/
def State.occCls (s : State) (u : Stage) : Option InsnClass := (s.occ u).map s.cls

/-- A BZ, BNZ or JUMP is the occupant of `u` (R112, R118). -/
def State.branchyAt (s : State) (u : Stage) : Bool :=
  match s.occCls u with
  | none => false
  | some c => c.branchy

/-- An arithmetic instruction is the occupant of `u` (R117). -/
def State.arithAt (s : State) (u : Stage) : Bool :=
  match s.occCls u with
  | none => false
  | some c => c.writesCc

/-! ### The stage-advance protocol -/

/-- A stage that performs ends with content `l`: the completion marker becomes its own id (R102) and the content is
copied to the stage downstream (R103). WB copies nowhere. -/
def State.advance (s : State) (u : Stage) (l : Latch) : State :=
  let l' := { l with done := some u }
  match u.downstream with
  | none => s.setLatch u l'
  | some d => (s.setLatch u l').setLatch d (l'.copyOver (s.latch d))

/-- MEM1 and MEM2 then empty their own latch (R103, R109, R110). -/
def State.advanceAndEmpty (s : State) (u : Stage) (l : Latch) : State :=
  let t := s.advance u l
  t.setLatch u (t.latch u).clearPc

/-- The display flag of a stage (R133). -/
def State.setIsEmpty (s : State) (u : Stage) (b : Bool) : State :=
  s.setLatch u { s.latch u with isEmpty := b }

/-! ### The control signals -/

/-- The number of a severity (R31). -/
def HaltSev.toNat : HaltSev → Nat
  | .none => 0
  | .weak => 1
  | .strong => 2

/-- `max` on severities (R31: "the larger severity is kept"). -/
def HaltSev.max (a b : HaltSev) : HaltSev := if a.toNat < b.toNat then b else a

/-- `halt_sev <- max(halt_sev, v)` (R112, R118). -/
def State.raiseHalt (s : State) (v : HaltSev) : State := { s with haltSev := s.haltSev.max v }

/-- `flush_pending <- 1; flush_target <- t` (R111). -/
def State.requestFlush (s : State) (t : Word) : State := { s with flushPending := true, flushTarget := t }

end Sys2Proof.Machine
end

