-- ==== Sys2Proof/Machine/Flags.lean ====
section
/-!
DEFINITION. Machine/Flags.lean: the condition code, its only writer and its only readers (spec 10_state.md R21,
41_arithmetic.md R151, 40_pipeline.md R111, R117). The block has no other flag (R36).
-/

namespace Sys2Proof.Machine

/-- The condition code of a 32-bit result: 1 when it is zero, else 0, whatever its sign (R151). -/
def ccOf (result : Word) : Word := if result = 0 then 1 else 0

/-- CC, `x[16]` (R21). -/
def State.cc (s : State) : Word := s.readX ccSlot

/-- `x[16] <- (buffer == 0) ? 1 : 0` (R151). -/
def State.writeCc (s : State) (result : Word) : State := s.writeX ccSlot (ccOf result)

/-- The CC value BZ is taken on (R111, R181). -/
def bzExpects : Word := 1

/-- The CC value BNZ is taken on (R111, R182). -/
def bnzExpects : Word := 0

/-- The condition-code lookahead that holds a BZ or BNZ in DRF: an arithmetic occupant in EX1, EX2, MEM1 or MEM2
(R117). -/
def State.ccHazard (s : State) : Bool :=
  s.arithAt .ex1 || s.arithAt .ex2 || s.arithAt .mem1 || s.arithAt .mem2

end Sys2Proof.Machine
end

