-- ==== Sys2Proof/Machine/Operands.lean ====
section
/-!
DEFINITION. Machine/Operands.lean: the source registers an instruction needs, whether they are ready, reading them, and
the address and target formulas (spec 30_encoding.md R74; 40_pipeline.md R113, R116, R120).
-/

namespace Sys2Proof.Machine

/-- The source registers an instruction needs in DRF, by field (R74, R116). -/
structure Sources where
  rs1 : Option Reg
  rs2 : Option Reg
  rs3 : Option Reg
deriving DecidableEq, Repr

/-- MOVC, HALT, BZ, BNZ, ILLEGAL and END need none. -/
def Sources.none : Sources := ⟨Option.none, Option.none, Option.none⟩

/-- LOAD and JUMP: one source. -/
def Sources.one (rs1 : Reg) : Sources := ⟨some rs1, Option.none, Option.none⟩

/-- Arithmetic, LDR and STORE: two sources. -/
def Sources.two (rs1 rs2 : Reg) : Sources := ⟨some rs1, some rs2, Option.none⟩

/-- STR: three sources. -/
def Sources.three (rs1 rs2 rs3 : Reg) : Sources := ⟨some rs1, some rs2, some rs3⟩

/-- One needed source is valid; one that is not needed never holds the instruction back (R116). -/
def State.sourceReady (s : State) : Option Reg → Bool
  | Option.none => true
  | some r => s.readV (regSlot r)

/-- `sources_ready(l)` (R116). -/
def State.sourcesReady (s : State) (n : Sources) : Bool :=
  s.sourceReady n.rs1 && s.sourceReady n.rs2 && s.sourceReady n.rs3

/-- The value of one source: read if needed, else what the latch holds (R120 step 1). -/
def State.sourceValue (s : State) (held : Word) : Option Reg → Word
  | Option.none => held
  | some r => s.readX (regSlot r)

/-- DRF's operand read into the latch (R120 step 1). -/
def State.readSources (s : State) (n : Sources) (l : Latch) : Latch :=
  { l with
    rs1Value := s.sourceValue l.rs1Value n.rs1
    rs2Value := s.sourceValue l.rs2Value n.rs2
    rs3Value := s.sourceValue l.rs3Value n.rs3 }

/-- `rs1_value + imm`: LOAD's address and JUMP's target (R113). -/
def Latch.rs1PlusImm (l : Latch) (imm : Word) : Word := l.rs1Value + imm

/-- `rs2_value + imm`: STORE's address (R113). -/
def Latch.rs2PlusImm (l : Latch) (imm : Word) : Word := l.rs2Value + imm

/-- `rs1_value + rs2_value`: LDR's address (R113). -/
def Latch.rs1PlusRs2 (l : Latch) : Word := l.rs1Value + l.rs2Value

/-- `rs2_value + rs3_value`: STR's address (R113). -/
def Latch.rs2PlusRs3 (l : Latch) : Word := l.rs2Value + l.rs3Value

/-- `l.pc + l.imm`: the target of a BZ or BNZ, relative to its own pc (R111). -/
def Latch.pcPlusImm (l : Latch) (imm : Word) : Word := l.pc + imm

end Sys2Proof.Machine
end

