-- ==== Sys2Proof/Machine/Units.lean ====
section
/-!
DEFINITION. Machine/Units.lean: what each stage unit does, as shared operations that the meanings of the instructions are
made of (spec 40_pipeline.md R105 to R124). A unit action here is what the unit does when it PERFORMS; whether it does is
decided in Machine/Cycle.lean (R102, R104), except for Fetch, which decides for itself (R121).
-/

namespace Sys2Proof.Machine

/-! ### Fetch -/

/-- The latch Fetch builds at `pc`: the fields of the word there, or an END latch at and past the end of the program
(R122, R123). -/
def State.fetchedLatch (s : State) : Latch :=
  { Latch.reset with
    pc := s.pc
    fields := if s.pc.toNat < s.endAddr then splitWord (s.imemAt s.pc) else Fields.zero
    isEmpty := false
    done := some .f }

/-- The Fetch unit (R121 to R124). Fetch stalls exactly when DRF's latch is stalled; a fetch from an illegal address
raises FetchOutOfRange; else the latch goes to F and DRF and pc moves on by 4. -/
def State.fetch (s : State) : State :=
  if s.L.drf.stalled then s.setIsEmpty .f true
  else if s.codeAddrOk s.pc then
    { s with
      L := { s.L with f := s.fetchedLatch, drf := s.fetchedLatch.copyOver s.L.drf }
      pc := s.pc + BitVec.ofNat 32 insnStride }
  else (s.setIsEmpty .f true).raise (.fetchOutOfRange s.pc)

/-! ### Decode / register read -/

/-- The stall action (R119). -/
def State.drfStall (s : State) : State :=
  (s.setLatch .drf { s.L.drf with stalled := true }).setLatch .f { s.L.f with stalled := true }

/-- The success action but for HALT's check (R120): read the needed sources, clear the stall flags, copy forward. -/
def State.drfAdvance (s : State) (n : Sources) : State :=
  let t := s.advance .drf { s.readSources n s.L.drf with stalled := false }
  t.setLatch .f { t.L.f with stalled := false }

/-- DRF for an instruction held back by its source registers (R115, R116). -/
def State.drfOnSources (s : State) (n : Sources) : State :=
  if s.sourcesReady n then s.drfAdvance n else s.drfStall

/-- DRF for BZ and BNZ, held back by the condition-code lookahead and by no register (R115, R117). -/
def State.drfOnCc (s : State) : State :=
  if s.ccHazard then s.drfStall else s.drfAdvance Sources.none

/-- DRF for HALT: never stalls; the weak HALT check (R118). -/
def State.drfHalt (s : State) : State :=
  let t := if s.branchyAt .ex1 || s.branchyAt .ex2 then s else s.raiseHalt .weak
  t.drfAdvance Sources.none

/-! ### Execute 1 -/

/-- EX1 with the latch content it computes, recording it for reconciliation (R113, R114). -/
def State.ex1Finish (s : State) (l : Latch) : State := ({ s with e1Done := some l }).advance .ex1 l

/-- EX1 of an instruction that computes a result into `buffer` and writes `rd`: the destination is invalidated first
(R113). -/
def State.ex1Result (s : State) (rd : Reg) (result : Word) : State :=
  (s.writeV (regSlot rd) false).ex1Finish { s.L.ex1 with buffer := result }

/-- EX1 of a load: the destination is invalidated, the address computed (R113). -/
def State.ex1LoadAddress (s : State) (rd : Reg) (a : Word) : State :=
  (s.writeV (regSlot rd) false).ex1Finish { s.L.ex1 with memAddress := a }

/-- EX1 of a store: the address computed, no validity bit changed (R113). -/
def State.ex1StoreAddress (s : State) (a : Word) : State := s.ex1Finish { s.L.ex1 with memAddress := a }

/-- EX1 of a JUMP: the target computed into `buffer`, no validity bit changed (R113). -/
def State.ex1Target (s : State) (t : Word) : State := s.ex1Finish { s.L.ex1 with buffer := t }

/-- EX1 of BZ, BNZ, HALT, ILLEGAL and END: nothing but passing on (R113). -/
def State.ex1Pass (s : State) : State := s.ex1Finish s.L.ex1

/-! ### Execute 2 -/

/-- EX2 passing its content on (R111). -/
def State.ex2Pass (s : State) : State := s.advance .ex2 s.L.ex2

/-- EX2 of a BZ or BNZ: taken when CC is the value the opcode expects (R111). -/
def State.ex2Branch (s : State) (expects imm : Word) : State :=
  (if s.cc = expects then s.requestFlush (s.L.ex2.pcPlusImm imm) else s).ex2Pass

/-- EX2 of a JUMP: always taken, to the target EX1 computed (R111). -/
def State.ex2Jump (s : State) : State := (s.requestFlush s.L.ex2.buffer).ex2Pass

/-- EX2 of a HALT: the strong HALT check (R112). -/
def State.ex2Halt (s : State) : State :=
  (if s.branchyAt .ex1 || s.branchyAt .drf then s else s.raiseHalt .strong).ex2Pass

/-! ### Memory 1 and 2 -/

/-- MEM1 has no effect but passing on (R110). -/
def State.mem1Pass (s : State) : State := s.advanceAndEmpty .mem1 s.L.mem1

/-- MEM2 passing on what is no load and no store (R109). -/
def State.mem2Pass (s : State) : State := s.advanceAndEmpty .mem2 s.L.mem2

/-- MEM2 of a load: the cell goes into `buffer` (R109). -/
def State.mem2Load (s : State) : State :=
  s.memRead s.L.mem2.pc s.L.mem2.memAddress fun v => s.advanceAndEmpty .mem2 { s.L.mem2 with buffer := v }

/-- MEM2 of a store: the first source's value goes to the cell (R109). -/
def State.mem2Store (s : State) : State :=
  s.memWrite s.L.mem2.pc s.L.mem2.memAddress s.L.mem2.rs1Value fun t => t.mem2Pass

/-! ### Writeback -/

/-- The completion marker of WB (R102). -/
def State.wbDone (s : State) : State := s.advance .wb s.L.wb

/-- WB counting an instruction (R108). -/
def State.wbCount (s : State) : State := ({ s with insCompleted := s.insCompleted + 1 }).wbDone

/-- `V[rd] <- 1; x[rd] <- buffer` (R105). -/
def State.wbWrite (s : State) (rd : Reg) : State := (s.writeV (regSlot rd) true).writeX (regSlot rd) s.L.wb.buffer

/-- WB of MOVC, LOAD and LDR (R105). -/
def State.wbResult (s : State) (rd : Reg) : State := (s.wbWrite rd).wbCount

/-- WB of an arithmetic instruction: CC is written after the destination (R105, R151). -/
def State.wbArith (s : State) (rd : Reg) : State := ((s.wbWrite rd).writeCc s.L.wb.buffer).wbCount

/-- WB of STORE, STR, BZ, BNZ and JUMP: no register-file effect (R105). -/
def State.wbPlain (s : State) : State := s.wbCount

/-- WB of HALT: `stop_req <- HALT` (R106). -/
def State.wbHalt (s : State) : State := ({ s with stopReq := .halt }).wbCount

/-! ### Contents that are no instruction -/

/-- An END latch: no operation in every stage, and in WB `stop_req <- DRAIN`, uncounted (R78, R107). -/
def State.endUnit (s : State) : State :=
  match s.unit with
  | .f => s.fetch
  | .drf => s.drfOnSources Sources.none
  | .ex1 => s.ex1Pass
  | .ex2 => s.ex2Pass
  | .mem1 => s.mem1Pass
  | .mem2 => s.mem2Pass
  | .wb => ({ s with stopReq := .drain }).wbDone

/-- An ILLEGAL latch: no effect in DRF to MEM2, and in WB `raise IllegalInstruction`, recording `op` and `resv`
(R77, R105, R203). -/
def State.illegalUnit (s : State) : State :=
  match s.unit with
  | .f => s.fetch
  | .drf => s.drfOnSources Sources.none
  | .ex1 => s.ex1Pass
  | .ex2 => s.ex2Pass
  | .mem1 => s.mem1Pass
  | .mem2 => s.mem2Pass
  | .wb => s.raise (.illegalInstruction s.L.wb.pc s.L.wb.fields.op s.L.wb.fields.resv)

end Sys2Proof.Machine
end

