-- ==== Sys2Proof/Machine/Arith.lean ====
section
/-!
DEFINITION. Machine/Arith.lean: the six arithmetic instructions (spec 41_arithmetic.md R150 to R157). The meaning of an
instruction is what the stage unit `s.unit` does when it performs it.
-/

namespace Sys2Proof.Machine

/-- What every arithmetic instruction does in each unit, `op` being the operator EX1 applies (R150). -/
def arithUnit (op : Word → Word → Word) (rd rs1 rs2 : Reg) (s : State) : State :=
  match s.unit with
  | .f => s.fetch
  | .drf => s.drfOnSources (Sources.two rs1 rs2)
  | .ex1 => s.ex1Result rd (op s.L.ex1.rs1Value s.L.ex1.rs2Value)
  | .ex2 => s.ex2Pass
  | .mem1 => s.mem1Pass
  | .mem2 => s.mem2Pass
  | .wb => s.wbArith rd

/-- ADD (R152): the sum modulo 2^32. -/
def execAdd (rd rs1 rs2 : Reg) (s : State) : Host.Outcome State Fault Refusal :=
  .next (arithUnit (fun a b => a + b) rd rs1 rs2 s)

/-- SUB (R153): the difference modulo 2^32. -/
def execSub (rd rs1 rs2 : Reg) (s : State) : Host.Outcome State Fault Refusal :=
  .next (arithUnit (fun a b => a - b) rd rs1 rs2 s)

/-- MUL (R154): the low 32 bits of the product. -/
def execMul (rd rs1 rs2 : Reg) (s : State) : Host.Outcome State Fault Refusal :=
  .next (arithUnit (fun a b => a * b) rd rs1 rs2 s)

/-- AND (R155): bitwise and. -/
def execAnd (rd rs1 rs2 : Reg) (s : State) : Host.Outcome State Fault Refusal :=
  .next (arithUnit (fun a b => a &&& b) rd rs1 rs2 s)

/-- OR (R156): bitwise inclusive or. -/
def execOr (rd rs1 rs2 : Reg) (s : State) : Host.Outcome State Fault Refusal :=
  .next (arithUnit (fun a b => a ||| b) rd rs1 rs2 s)

/-- EX-OR (R157): bitwise exclusive or. -/
def execExOr (rd rs1 rs2 : Reg) (s : State) : Host.Outcome State Fault Refusal :=
  .next (arithUnit (fun a b => a ^^^ b) rd rs1 rs2 s)

end Sys2Proof.Machine
end

