-- ==== Sys2Proof/Machine/Control.lean ====
section
/-!
DEFINITION. Machine/Control.lean: BZ, BNZ, JUMP and HALT (spec 44_control.md R180 to R186). EX2 asks for a flush or a
halt; reconciliation, at the end of the cycle, carries it out (Machine/Cycle.lean).
-/

namespace Sys2Proof.Machine

/-- What BZ and BNZ do in each unit, `expects` being the CC value the branch is taken on (R180 to R182). -/
def branchUnit (expects imm : Word) (s : State) : State :=
  match s.unit with
  | .f => s.fetch
  | .drf => s.drfOnCc
  | .ex1 => s.ex1Pass
  | .ex2 => s.ex2Branch expects imm
  | .mem1 => s.mem1Pass
  | .mem2 => s.mem2Pass
  | .wb => s.wbPlain

/-- BZ (R181): taken when CC is 1. -/
def execBz (imm : Word) (s : State) : Host.Outcome State Fault Refusal := .next (branchUnit bzExpects imm s)

/-- BNZ (R182): taken when CC is 0. -/
def execBnz (imm : Word) (s : State) : Host.Outcome State Fault Refusal := .next (branchUnit bnzExpects imm s)

/-- JUMP (R183): always taken, to `rs1 + imm`, absolute; held back by `rs1` and not by the CC scan. -/
def execJump (rs1 : Reg) (imm : Word) (s : State) : Host.Outcome State Fault Refusal :=
  .next <|
    match s.unit with
    | .f => s.fetch
    | .drf => s.drfOnSources (Sources.one rs1)
    | .ex1 => s.ex1Target (s.L.ex1.rs1PlusImm imm)
    | .ex2 => s.ex2Jump
    | .mem1 => s.mem1Pass
    | .mem2 => s.mem2Pass
    | .wb => s.wbPlain

/-- HALT (R184): weak halt from DRF, strong halt from EX2, the stop request from WB. -/
def execHalt (s : State) : Host.Outcome State Fault Refusal :=
  .next <|
    match s.unit with
    | .f => s.fetch
    | .drf => s.drfHalt
    | .ex1 => s.ex1Pass
    | .ex2 => s.ex2Halt
    | .mem1 => s.mem1Pass
    | .mem2 => s.mem2Pass
    | .wb => s.wbHalt

end Sys2Proof.Machine
end

