-- ==== Sys2Proof/Machine/LoadStore.lean ====
section
/-!
DEFINITION. Machine/LoadStore.lean: LOAD, STORE, LDR and STR (spec 43_load_store.md R170 to R174). The address is
computed in EX1 and used in MEM2, which checks it; a store's datum is the first source as DRF read it.
-/

namespace Sys2Proof.Machine

/-- What a load does in each unit (R170): `n` the sources it needs, `address` its address from the EX1 latch. -/
def loadUnit (n : Sources) (address : Latch → Word) (rd : Reg) (s : State) : State :=
  match s.unit with
  | .f => s.fetch
  | .drf => s.drfOnSources n
  | .ex1 => s.ex1LoadAddress rd (address s.L.ex1)
  | .ex2 => s.ex2Pass
  | .mem1 => s.mem1Pass
  | .mem2 => s.mem2Load
  | .wb => s.wbResult rd

/-- What a store does in each unit (R170): `n` the sources it needs, `address` its address from the EX1 latch. -/
def storeUnit (n : Sources) (address : Latch → Word) (s : State) : State :=
  match s.unit with
  | .f => s.fetch
  | .drf => s.drfOnSources n
  | .ex1 => s.ex1StoreAddress (address s.L.ex1)
  | .ex2 => s.ex2Pass
  | .mem1 => s.mem1Pass
  | .mem2 => s.mem2Store
  | .wb => s.wbPlain

/-- LOAD (R171): cell `rs1 + imm`. -/
def execLoad (rd rs1 : Reg) (imm : Word) (s : State) : Host.Outcome State Fault Refusal :=
  .next (loadUnit (Sources.one rs1) (fun l => l.rs1PlusImm imm) rd s)

/-- STORE (R172): `rs1` to cell `rs2 + imm`. -/
def execStore (rs1 rs2 : Reg) (imm : Word) (s : State) : Host.Outcome State Fault Refusal :=
  .next (storeUnit (Sources.two rs1 rs2) (fun l => l.rs2PlusImm imm) s)

/-- LDR (R173): cell `rs1 + rs2`. -/
def execLdr (rd rs1 rs2 : Reg) (s : State) : Host.Outcome State Fault Refusal :=
  .next (loadUnit (Sources.two rs1 rs2) (fun l => l.rs1PlusRs2) rd s)

/-- STR (R174): `rs1` to cell `rs2 + rs3`. -/
def execStr (rs1 rs2 rs3 : Reg) (s : State) : Host.Outcome State Fault Refusal :=
  .next (storeUnit (Sources.three rs1 rs2 rs3) (fun l => l.rs2PlusRs3) s)

end Sys2Proof.Machine
end

