-- ==== Sys2Proof/Machine/Move.lean ====
section
/-!
DEFINITION. Machine/Move.lean: MOVC (spec 42_move.md R160).
-/

namespace Sys2Proof.Machine

/-- MOVC (R160): never stalls, reads no register, leaves CC as it was. -/
def execMovc (rd : Reg) (imm : Word) (s : State) : Host.Outcome State Fault Refusal :=
  .next <|
    match s.unit with
    | .f => s.fetch
    | .drf => s.drfOnSources Sources.none
    | .ex1 => s.ex1Result rd imm
    | .ex2 => s.ex2Pass
    | .mem1 => s.mem1Pass
    | .mem2 => s.mem2Pass
    | .wb => s.wbResult rd

end Sys2Proof.Machine
end

