-- ==== Sys2Proof/Machine/Dispatch.lean ====
section
/-!
DEFINITION. Machine/Dispatch.lean: exec, one arm for each instruction of spec/opcode_table.json.
-/

namespace Sys2Proof.Machine

-- What the stage unit `s.unit` does when it performs the instruction `i` (spec 40_pipeline.md R102).
def exec (i : Instr) (s : State) : Host.Outcome State Fault Refusal :=
  match i with
  | .movc rd imm => Sys2Proof.Machine.execMovc rd imm s
  | .add rd rs1 rs2 => Sys2Proof.Machine.execAdd rd rs1 rs2 s
  | .sub rd rs1 rs2 => Sys2Proof.Machine.execSub rd rs1 rs2 s
  | .mul rd rs1 rs2 => Sys2Proof.Machine.execMul rd rs1 rs2 s
  | .and rd rs1 rs2 => Sys2Proof.Machine.execAnd rd rs1 rs2 s
  | .or rd rs1 rs2 => Sys2Proof.Machine.execOr rd rs1 rs2 s
  | .exOr rd rs1 rs2 => Sys2Proof.Machine.execExOr rd rs1 rs2 s
  | .load rd rs1 imm => Sys2Proof.Machine.execLoad rd rs1 imm s
  | .store rs1 rs2 imm => Sys2Proof.Machine.execStore rs1 rs2 imm s
  | .ldr rd rs1 rs2 => Sys2Proof.Machine.execLdr rd rs1 rs2 s
  | .str rs1 rs2 rs3 => Sys2Proof.Machine.execStr rs1 rs2 rs3 s
  | .bz imm => Sys2Proof.Machine.execBz imm s
  | .bnz imm => Sys2Proof.Machine.execBnz imm s
  | .jump rs1 imm => Sys2Proof.Machine.execJump rs1 imm s
  | .halt => Sys2Proof.Machine.execHalt s

end Sys2Proof.Machine
end

