-- ==== Sys2Proof/Machine/Cycle.lean ====
section
/-!
DEFINITION. Machine/Cycle.lean: one clock cycle (spec 40_pipeline.md R100): the snapshot, the stage units in reverse
pipeline order, reconciliation (R125 to R128) and the end of the cycle (R129), and one iteration of the run loop (R130).
-/

namespace Sys2Proof.Machine

/-! ### Step 1 -/

/-- Record `S0` and clear the intra-cycle signals (R100 step 1). -/
def State.beginCycle (s : State) : State :=
  { s with S0 := s.L, flushPending := false, flushTarget := 0, haltSev := .none, e1Done := none, stopReq := .none }

/-! ### Step 2 -/

/-- What the unit `s.unit` does with a content of its latch when it performs (R102): the meaning of the instruction, or
the action of an ILLEGAL or END latch. -/
def performContent (c : Content) (s : State) : Host.Outcome State Fault Refusal :=
  match c with
  | .instr i => exec i s
  | .illegal => .next s.illegalUnit
  | .endOfCode => .next s.endUnit

/-- The content Fetch hands over when it fetches at `pc` (R122, R123). -/
def State.fetchedContent (s : State) : Content := s.content s.fetchedLatch

/-- One stage unit from DRF to WB: it performs if its latch is fresh (R102) and changes nothing else if not (R104);
`is_empty` says which (R133). -/
def latchUnit (u : Stage) (s : State) : Host.Outcome State Fault Refusal :=
  if (s.S0.get u).fresh u then
    performContent (s.content (s.latch u)) (({ s with unit := u }).setIsEmpty u false)
  else .next (({ s with unit := u }).setIsEmpty u true)

/-- The Fetch unit: the instruction at `pc` decides which meaning is called; every content is fetched alike (R71, R121
to R124). -/
def fetchUnit (s : State) : Host.Outcome State Fault Refusal :=
  performContent s.fetchedContent { s with unit := .f }

/-- One stage unit of a cycle; none runs after a raise (R204). -/
def runUnit (u : Stage) (s : State) : Host.Outcome State Fault Refusal :=
  match s.runState with
  | .stopped => .next s
  | .running =>
    match u with
    | .f => fetchUnit s
    | _ => latchUnit u s

/-- Go on with `k` from a next state; stop at a fault or a refusal. -/
def andThen (o : Host.Outcome State Fault Refusal) (k : State → Host.Outcome State Fault Refusal) :
    Host.Outcome State Fault Refusal :=
  match o with
  | .next s => k s
  | .fault r => .fault r
  | .refused r => .refused r

/-- The stage units one after the other. -/
def runUnits : List Stage → State → Host.Outcome State Fault Refusal
  | [], s => .next s
  | u :: us, s => andThen (runUnit u s) (runUnits us)

/-- "stage units in reverse pipeline order" (R100 step 2). -/
def unitOrder : List Stage := [.wb, .mem2, .mem1, .ex2, .ex1, .drf, .f]

/-! ### Step 3 -/

/-- The validity restore (R127). -/
def State.restoreValid (s : State) : State :=
  match s.e1Done with
  | none => s
  | some l => if s.launch.flushRestoresValid && (s.cls l).writesRd then s.writeV (regSlot l.fields.rd) true else s

/-- `L[s].pc <- 0; L[s].stalled <- 0` for F and DRF (R125, R126). -/
def State.clearFront (s : State) : State := { s with L := { s.L with f := s.L.f.flush, drf := s.L.drf.flush } }

/-- The same for EX1 and EX2 (R125, R126). -/
def State.clearExecute (s : State) : State := { s with L := { s.L with ex1 := s.L.ex1.flush, ex2 := s.L.ex2.flush } }

/-- A pending flush: restore, redirect, clear F, DRF, EX1 and EX2 (R125). -/
def State.applyFlush (s : State) : State :=
  if s.flushPending then
    let t := s.restoreValid
    ({ t with pc := t.flushTarget }).clearFront.clearExecute
  else s

/-- A pending halt: redirect to `END_ADDR`, clear F and DRF; a strong one also restores and clears EX1 and EX2 (R126). -/
def State.applyHalt (s : State) : State :=
  match s.haltSev with
  | .none => s
  | .weak => ({ s with pc := BitVec.ofNat 32 s.endAddr }).clearFront
  | .strong => (({ s with pc := BitVec.ofNat 32 s.endAddr }).clearFront.restoreValid).clearExecute

/-- Reconciliation: flush first, then halt, then the signals are cleared (R128). -/
def State.reconcile (s : State) : State :=
  let t := s.applyFlush.applyHalt
  { t with flushPending := false, flushTarget := 0, haltSev := .none }

/-! ### Step 4 -/

/-- The end of the cycle (R129). -/
def State.endCycle (s : State) : State :=
  match s.stopReq with
  | .halt => { s with runState := .stopped, outcome := .halted }
  | .drain => { s with runState := .stopped, outcome := .drained }
  | .none => { s with clock := s.clock + 1 }

/-- Reconciliation and the end of the cycle, neither after a raise (R204). -/
def State.finishCycle (s : State) : State :=
  match s.runState with
  | .stopped => s
  | .running => s.reconcile.endCycle

/-- One clock cycle (R100). -/
def cycle (s : State) : Host.Outcome State Fault Refusal :=
  andThen (runUnits unitOrder s.beginCycle) fun t => .next t.finishCycle

/-! ### The run loop -/

/-- One iteration of the run loop for a launch the host may start: the cycle bound is tested before the cycle (R130). -/
def loopIteration (s : State) : Host.Outcome State Fault Refusal :=
  if s.launch.maxCycles ≤ s.clock then .next { s with runState := .stopped, outcome := .cycleBound }
  else cycle s

/-- One step of the machine: nothing after the run has stopped (R35, R216); no cycle for a launch the host does not start
(R6, R11, R214); else one iteration of the run loop. -/
def runLoopStep (s : State) : Host.Outcome State Fault Refusal :=
  match s.runState with
  | .stopped => .next s
  | .running =>
    if !(s.launch.parametersOk s.progLen) then .fault .parametersOutOfRange
    else if !(s.launch.programFits s.progLen) then .fault .loadFailure
    else loopIteration s

end Sys2Proof.Machine
end

