-- ==== Sys2Proof/Machine/Step.lean ====
section
/-!
DEFINITION. Machine/Step.lean: the step of the machine, and where its next instruction is fetched from.
-/

namespace Sys2Proof.Machine

/-- One step: one iteration of the run loop, in general one clock cycle (spec 00_scope.md R5; 40_pipeline.md R130). -/
def step (s : State) : Host.Outcome State Fault Refusal := runLoopStep s

/-- `s` with the word `w` in the instruction store where Fetch reads next, `IMEM[(pc - CODE_BASE)/4]` (R25, R122). A
store that ends before that entry is grown to hold it; this stands for the loader (R11; notes/assumptions/2.md). -/
def State.withFetchWord (s : State) (nbits w : Nat) : State :=
  s.placeAtPc (BitVec.ofNat 64 (w % 2 ^ nbits))

end Sys2Proof.Machine
end

