-- ==== Sys2Proof/Machine/Reference.lean ====
section
/-!
DEFINITION. Machine/Reference.lean: the cycle a second time, stage by stage and by class, from the one piece of pseudocode
of spec 40_pipeline.md R138 (with the display flags of R133, which that listing leaves out). No step uses it: it is the
other side of the claim that the instruction-by-instruction meanings agree with the stage-by-stage listing. It reads the
opcode number and the register fields of a latch, never a decoded instruction.
-/

namespace Sys2Proof.Machine

/-- `class(l)` from the opcode number (R73, R74). -/
def State.refClass (s : State) (l : Latch) : InsnClass :=
  if s.endAddr ≤ l.pc.toNat then .endOfCode
  else if l.fields.resv ≠ 0 then .illegal
  else
    match l.fields.op.toNat with
    | 1 => .movc
    | 2 => .arith
    | 3 => .arith
    | 4 => .arith
    | 5 => .arith
    | 6 => .arith
    | 7 => .arith
    | 8 => .load
    | 9 => .store
    | 10 => .ldr
    | 11 => .str
    | 12 => .branch
    | 13 => .branch
    | 14 => .jump
    | 15 => .halt
    | _ => .illegal

/-- `occ(s) != none and branchy(occ(s))`. -/
def State.refBranchy (s : State) (u : Stage) : Bool :=
  (s.S0.get u).fresh u && (s.refClass (s.S0.get u)).branchy

/-- `occ(s) != none and class(occ(s)) = ARITH`. -/
def State.refArith (s : State) (u : Stage) : Bool :=
  (s.S0.get u).fresh u && decide (s.refClass (s.S0.get u) = .arith)

/-- The ALU row of the EX1 table, by opcode number (R113). -/
def refAlu (op : BitVec 8) (a b : Word) : Word :=
  if op = 2 then a + b
  else if op = 3 then a - b
  else if op = 4 then a * b
  else if op = 5 then a &&& b
  else if op = 6 then a ||| b
  else a ^^^ b

/-- WB of the listing. -/
def State.refWb (s : State) : State :=
  if s.S0.wb.fresh .wb then
    let l : Latch := { s.L.wb with isEmpty := false }
    let c := s.refClass l
    let s : State := { s with L := { s.L with wb := l } }
    if c = .illegal then s.raise (.illegalInstruction l.pc l.fields.op l.fields.resv)
    else
      let s : State := if c.writesRd then (s.writeV (regSlot l.fields.rd) true).writeX (regSlot l.fields.rd) l.buffer else s
      let s : State := if c = .arith then s.writeX ccSlot (if l.buffer = 0 then 1 else 0) else s
      let s : State := if c = .halt then { s with stopReq := .halt } else s
      let s : State := if c = .endOfCode then { s with stopReq := .drain } else { s with insCompleted := s.insCompleted + 1 }
      { s with L := { s.L with wb := { l with done := some .wb } } }
  else { s with L := { s.L with wb := { s.L.wb with isEmpty := true } } }

/-- MEM2 of the listing. -/
def State.refMem2 (s : State) : State :=
  if s.S0.mem2.fresh .mem2 then
    let l : Latch := { s.L.mem2 with isEmpty := false }
    let c := s.refClass l
    let s : State := { s with L := { s.L with mem2 := l } }
    let isLoad := decide (c = .load) || decide (c = .ldr)
    let isStore := decide (c = .store) || decide (c = .str)
    if (isLoad || isStore) && decide (s.launch.dmemCells ≤ l.memAddress.toNat) then
      s.raise (.dataOutOfRange l.pc l.memAddress)
    else
      let l : Latch := if isLoad then { l with buffer := DMem.read s.dmem l.memAddress.toNat } else l
      let s : State := if isStore then { s with dmem := DMem.write s.dmem l.memAddress.toNat l.rs1Value } else s
      { s with
        L := { s.L with
          mem2 := { l with done := some .mem2, pc := 0 }
          wb := { l with done := some .mem2, isEmpty := s.L.wb.isEmpty } } }
  else { s with L := { s.L with mem2 := { s.L.mem2 with isEmpty := true } } }

/-- MEM1 of the listing. -/
def State.refMem1 (s : State) : State :=
  if s.S0.mem1.fresh .mem1 then
    { s with
      L := { s.L with
        mem1 := { s.L.mem1 with isEmpty := false, done := some .mem1, pc := 0 }
        mem2 := { s.L.mem1 with done := some .mem1, isEmpty := s.L.mem2.isEmpty } } }
  else { s with L := { s.L with mem1 := { s.L.mem1 with isEmpty := true } } }

/-- EX2 of the listing. -/
def State.refEx2 (s : State) : State :=
  if s.S0.ex2.fresh .ex2 then
    let l : Latch := { s.L.ex2 with isEmpty := false }
    let c := s.refClass l
    let s : State :=
      if c = .branch then
        if (l.fields.op = 12 ∧ s.readX ccSlot = 1) ∨ (l.fields.op = 13 ∧ s.readX ccSlot = 0) then
          { s with flushPending := true, flushTarget := l.pc + l.fields.imm }
        else s
      else if c = .jump then { s with flushPending := true, flushTarget := l.buffer }
      else if c = .halt then
        if s.refBranchy .ex1 || s.refBranchy .drf then s else { s with haltSev := s.haltSev.max .strong }
      else s
    { s with
      L := { s.L with
        ex2 := { l with done := some .ex2 }
        mem1 := { l with done := some .ex2, isEmpty := s.L.mem1.isEmpty } } }
  else { s with L := { s.L with ex2 := { s.L.ex2 with isEmpty := true } } }

/-- EX1 of the listing. -/
def State.refEx1 (s : State) : State :=
  if s.S0.ex1.fresh .ex1 then
    let l : Latch := { s.L.ex1 with isEmpty := false }
    let c := s.refClass l
    let s : State := if c.writesRd then s.writeV (regSlot l.fields.rd) false else s
    let l : Latch :=
      match c with
      | .movc => { l with buffer := l.fields.imm }
      | .arith => { l with buffer := refAlu l.fields.op l.rs1Value l.rs2Value }
      | .load => { l with memAddress := l.rs1Value + l.fields.imm }
      | .store => { l with memAddress := l.rs2Value + l.fields.imm }
      | .ldr => { l with memAddress := l.rs1Value + l.rs2Value }
      | .str => { l with memAddress := l.rs2Value + l.rs3Value }
      | .jump => { l with buffer := l.rs1Value + l.fields.imm }
      | .branch => l
      | .halt => l
      | .illegal => l
      | .endOfCode => l
    { s with
      e1Done := some l
      L := { s.L with
        ex1 := { l with done := some .ex1 }
        ex2 := { l with done := some .ex1, isEmpty := s.L.ex2.isEmpty } } }
  else { s with L := { s.L with ex1 := { s.L.ex1 with isEmpty := true } } }

/-- `sources_ready(l)` by class and register fields (R116). -/
def State.refReady (s : State) (l : Latch) (c : InsnClass) : Bool :=
  let v := fun r => s.readV (regSlot r)
  match c with
  | .str => v l.fields.rs1 && v l.fields.rs2 && v l.fields.rs3
  | .arith => v l.fields.rs1 && v l.fields.rs2
  | .ldr => v l.fields.rs1 && v l.fields.rs2
  | .store => v l.fields.rs1 && v l.fields.rs2
  | .load => v l.fields.rs1
  | .jump => v l.fields.rs1
  | .movc => true
  | .branch => true
  | .halt => true
  | .illegal => true
  | .endOfCode => true

/-- The needed sources read from `x`, by class and register fields (R120). -/
def State.refRead (s : State) (l : Latch) (c : InsnClass) : Latch :=
  let x := fun r => s.readX (regSlot r)
  match c with
  | .str => { l with rs1Value := x l.fields.rs1, rs2Value := x l.fields.rs2, rs3Value := x l.fields.rs3 }
  | .arith => { l with rs1Value := x l.fields.rs1, rs2Value := x l.fields.rs2 }
  | .ldr => { l with rs1Value := x l.fields.rs1, rs2Value := x l.fields.rs2 }
  | .store => { l with rs1Value := x l.fields.rs1, rs2Value := x l.fields.rs2 }
  | .load => { l with rs1Value := x l.fields.rs1 }
  | .jump => { l with rs1Value := x l.fields.rs1 }
  | .movc => l
  | .branch => l
  | .halt => l
  | .illegal => l
  | .endOfCode => l

/-- DRF of the listing. -/
def State.refDrf (s : State) : State :=
  if s.S0.drf.fresh .drf then
    let l : Latch := { s.L.drf with isEmpty := false }
    let c := s.refClass l
    let stall :=
      if c = .branch then s.refArith .ex1 || s.refArith .ex2 || s.refArith .mem1 || s.refArith .mem2
      else !(s.refReady l c)
    if stall then
      { s with L := { s.L with drf := { l with stalled := true }, f := { s.L.f with stalled := true } } }
    else
      let l : Latch := { s.refRead l c with stalled := false }
      let s : State :=
        if c = .halt then
          if s.refBranchy .ex1 || s.refBranchy .ex2 then s else { s with haltSev := s.haltSev.max .weak }
        else s
      { s with
        L := { s.L with
          f := { s.L.f with stalled := false }
          drf := { l with done := some .drf }
          ex1 := { l with done := some .drf, isEmpty := s.L.ex1.isEmpty } } }
  else { s with L := { s.L with drf := { s.L.drf with isEmpty := true } } }

/-- F of the listing. -/
def State.refFetch (s : State) : State :=
  if s.L.drf.stalled = false then
    if s.pc.toNat < s.launch.codeBase ∨ (s.pc.toNat - s.launch.codeBase) % 4 ≠ 0 then
      { s with
        L := { s.L with f := { s.L.f with isEmpty := true } }
        runState := .stopped
        outcome := .fault (.fetchOutOfRange s.pc) }
    else
      let n : Latch :=
        { Latch.reset with
          pc := s.pc
          done := some .f
          isEmpty := false
          fields :=
            if s.pc.toNat < s.endAddr then splitWord ((s.imem[(s.pc.toNat - s.launch.codeBase) / 4]?).getD 0)
            else Fields.zero }
      { s with L := { s.L with f := n, drf := { n with isEmpty := s.L.drf.isEmpty } }, pc := s.pc + 4 }
  else { s with L := { s.L with f := { s.L.f with isEmpty := true } } }

/-- `restore(e1_done)` of the listing. -/
def State.refRestore (s : State) : State :=
  match s.e1Done with
  | none => s
  | some e =>
    if s.launch.flushRestoresValid = true ∧ (s.refClass e).writesRd = true then
      s.writeV (regSlot e.fields.rd) true
    else s

/-- Reconciliation and the stop of the listing. -/
def State.refReconcile (s : State) : State :=
  let s : State :=
    if s.flushPending then
      let s : State := s.refRestore
      { s with
        pc := s.flushTarget
        L := { s.L with f := s.L.f.flush, drf := s.L.drf.flush, ex1 := s.L.ex1.flush, ex2 := s.L.ex2.flush } }
    else s
  let s : State :=
    if 1 ≤ s.haltSev.toNat then
      { s with
        pc := BitVec.ofNat 32 (s.launch.codeBase + 4 * s.imem.length)
        L := { s.L with f := s.L.f.flush, drf := s.L.drf.flush } }
    else s
  let s : State :=
    if s.haltSev.toNat = 2 then
      let s : State := s.refRestore
      { s with L := { s.L with ex1 := s.L.ex1.flush, ex2 := s.L.ex2.flush } }
    else s
  let s : State := { s with flushPending := false, flushTarget := 0, haltSev := .none }
  if s.stopReq = .halt then { s with runState := .stopped, outcome := .halted }
  else if s.stopReq = .drain then { s with runState := .stopped, outcome := .drained }
  else { s with clock := s.clock + 1 }

/-- A unit of the listing, unless an earlier one has raised (60_exceptions.md R204). -/
def State.refThen (s : State) (k : State → State) : State := if s.runState = .stopped then s else k s

/-- `cycle()` of the listing. -/
def State.refCycle (s : State) : State :=
  let s : State :=
    { s with S0 := s.L, flushPending := false, flushTarget := 0, haltSev := .none, e1Done := none, stopReq := .none }
  ((((((((s.refThen State.refWb).refThen State.refMem2).refThen State.refMem1).refThen State.refEx2).refThen
    State.refEx1).refThen State.refDrf).refThen State.refFetch).refThen State.refReconcile)

end Sys2Proof.Machine
end

