-- ==== Sys2Proof/Safety.lean ====
section
/-!
DEFINITION. Safety.lean: the terms the claims use: what counts as a good run, the invariants of the machine, and the life
of one instruction through the stage units.
-/

namespace Sys2Proof.Machine

/-! ### Runs -/

/-- The run goes on. -/
def State.Running (s : State) : Prop := s.runState = .running

/-- The run has ended in a fault of the block (spec 60_exceptions.md R204). -/
def State.Faulted (s : State) : Prop := s.runState = .stopped ∧ ∃ r, s.outcome = .fault r

/-- The run has ended normally: HALTED or DRAINED. The cycle bound is "an incomplete-run outcome, distinct from normal
termination" (R130) and is not one of them. -/
def State.Completed (s : State) : Prop := s.runState = .stopped ∧ (s.outcome = .halted ∨ s.outcome = .drained)

/-- The next step is a clock cycle: the run goes on, the host may start the launch, and the cycle bound is not reached
(R6, R11, R130). -/
def State.CycleNext (s : State) : Prop :=
  s.runState = .running ∧ s.launchOk = true ∧ s.clock < s.launch.maxCycles

/-- `k` steps of the machine answer `t`. -/
def Reaches : Nat → State → State → Prop
  | 0, s, t => s = t
  | k + 1, s, t => ∃ m, step s = .next m ∧ Reaches k m t

/-- Safety of a state: it has not faulted. -/
def State.Safe (s : State) : Prop := ¬ s.Faulted

/-! ### Invariants -/

/-- Every listed cell is a cell of the memory (R26). -/
def State.CellsInRange (s : State) : Prop := ∀ a w, (a, w) ∈ s.dmem → a < s.launch.dmemCells

/-- The structural invariant of the machine between steps. -/
structure State.CoreInv (s : State) : Prop where
  /-- The data memory is in its canonical form. -/
  memoryCanonical : s.dmem.wf = true
  /-- Every listed cell is one of the `DMEM_CELLS` cells (R26). -/
  memoryInRange : s.CellsInRange
  /-- CC "holds 0 or 1" (R21). -/
  ccIsBit : s.readX ccSlot = 0 ∨ s.readX ccSlot = 1
  /-- `V[16]` "stays 1" (R22). -/
  ccValid : s.readV ccSlot = true
  /-- "`busy` is 0 in every latch at all times" (R134). -/
  neverBusy : ∀ u, (s.latch u).busy = false
  /-- DRF alone stalls, for itself and for F (R28, R119): no latch from EX1 down is stalled. -/
  notStalledBelowDrf : ∀ u, u ≠ .f → u ≠ .drf → (s.latch u).stalled = false
  /-- A stalled DRF latch holds a fresh instruction, so Fetch is never frozen behind an empty latch (R119, D21). -/
  stalledDrfFresh : s.L.drf.stalled = true → s.L.drf.fresh .drf = true
  /-- A run has an outcome exactly when it has stopped (R35). -/
  outcomeIffStopped : s.runState = .running ↔ s.outcome = .none
  /-- The signals are cleared by reconciliation (R31, R128). -/
  signalsCleared : s.runState = .running → s.flushPending = false ∧ s.flushTarget = 0 ∧ s.haltSev = .none
  /-- At most `MAX_CYCLES` cycles are counted (R130, R232). -/
  clockBounded : s.clock ≤ s.launch.maxCycles

/-- An instruction that has performed EX1, has not performed WB and writes slot `i` stands in the latch of `u` (R23: "in
flight" means between performing EX1 and performing WB). -/
def State.WriterAt (s : State) (i : Slot) (u : Stage) : Prop :=
  (u = .ex2 ∨ u = .mem1 ∨ u = .mem2 ∨ u = .wb) ∧ (s.latch u).fresh u = true ∧
    (s.cls (s.latch u)).writesRd = true ∧ regSlot (s.latch u).fields.rd = i

/-- "a register is INVALID ... while some in-flight instruction has claimed it as a destination and has not yet written it
back" (R23): no register is INVALID without a writer in flight. -/
def State.InvalidHasWriter (s : State) : Prop := ∀ i, s.readV i = false → ∃ u, s.WriterAt i u

/-! ### The life of one instruction -/

/-- The units of `us` perform the instruction one after the other. -/
def performIn (i : Instr) : List Stage → State → Host.Outcome State Fault Refusal
  | [], s => .next s
  | u :: us, s => andThen (exec i { s with unit := u }) (performIn i us)

/-- The instruction in DRF's latch performed by DRF, EX1, EX2, MEM1, MEM2 and WB in turn, no other instruction acting in
between: what the instruction does as a whole (R136, R150, R160, R170, R180). -/
def life (i : Instr) (s : State) : Host.Outcome State Fault Refusal :=
  performIn i [.drf, .ex1, .ex2, .mem1, .mem2, .wb] s

end Sys2Proof.Machine
end

