-- ==== Sys2Proof/Certificates/Slice0/Obligations.lean ====
section
/-!
DEFINITION. Certificates/Slice0/Obligations.lean: the statements for the provers. The spec-side terms they use come first
(what a stage leaves behind, which fields and sources an instruction uses), written from the rules and not from the model's
operations; then the statements, in the order of OBLIGATIONS.json.
-/

namespace Sys2Proof.Claims

open Sys2Proof Sys2Proof.Machine

/-! ### Encoding terms -/

/-- The opcode numbers of R73. -/
def opcodeOf : Instr → BitVec 8
  | .movc _ _ => 0x01
  | .add _ _ _ => 0x02
  | .sub _ _ _ => 0x03
  | .mul _ _ _ => 0x04
  | .and _ _ _ => 0x05
  | .or _ _ _ => 0x06
  | .exOr _ _ _ => 0x07
  | .load _ _ _ => 0x08
  | .store _ _ _ => 0x09
  | .ldr _ _ _ => 0x0A
  | .str _ _ _ => 0x0B
  | .bz _ => 0x0C
  | .bnz _ => 0x0D
  | .jump _ _ => 0x0E
  | .halt => 0x0F

/-- The fields the class uses hold the instruction's operands (R75); nothing is said of the others. -/
def UsedFieldsHold (f : Fields) : Instr → Prop
  | .movc rd imm => f.rd = rd ∧ f.imm = imm
  | .add rd rs1 rs2 => f.rd = rd ∧ f.rs1 = rs1 ∧ f.rs2 = rs2
  | .sub rd rs1 rs2 => f.rd = rd ∧ f.rs1 = rs1 ∧ f.rs2 = rs2
  | .mul rd rs1 rs2 => f.rd = rd ∧ f.rs1 = rs1 ∧ f.rs2 = rs2
  | .and rd rs1 rs2 => f.rd = rd ∧ f.rs1 = rs1 ∧ f.rs2 = rs2
  | .or rd rs1 rs2 => f.rd = rd ∧ f.rs1 = rs1 ∧ f.rs2 = rs2
  | .exOr rd rs1 rs2 => f.rd = rd ∧ f.rs1 = rs1 ∧ f.rs2 = rs2
  | .load rd rs1 imm => f.rd = rd ∧ f.rs1 = rs1 ∧ f.imm = imm
  | .store rs1 rs2 imm => f.rs1 = rs1 ∧ f.rs2 = rs2 ∧ f.imm = imm
  | .ldr rd rs1 rs2 => f.rd = rd ∧ f.rs1 = rs1 ∧ f.rs2 = rs2
  | .str rs1 rs2 rs3 => f.rs1 = rs1 ∧ f.rs2 = rs2 ∧ f.rs3 = rs3
  | .bz imm => f.imm = imm
  | .bnz imm => f.imm = imm
  | .jump rs1 imm => f.rs1 = rs1 ∧ f.imm = imm
  | .halt => True

/-- The source registers DRF must find valid, in field order (R74, R116). -/
def sourcesOf : Instr → List Reg
  | .movc _ _ => []
  | .add _ rs1 rs2 => [rs1, rs2]
  | .sub _ rs1 rs2 => [rs1, rs2]
  | .mul _ rs1 rs2 => [rs1, rs2]
  | .and _ rs1 rs2 => [rs1, rs2]
  | .or _ rs1 rs2 => [rs1, rs2]
  | .exOr _ rs1 rs2 => [rs1, rs2]
  | .load _ rs1 _ => [rs1]
  | .store rs1 rs2 _ => [rs1, rs2]
  | .ldr _ rs1 rs2 => [rs1, rs2]
  | .str rs1 rs2 rs3 => [rs1, rs2, rs3]
  | .bz _ => []
  | .bnz _ => []
  | .jump rs1 _ => [rs1]
  | .halt => []

/-- Every source register of the list is VALID (R116). -/
def AllValid (s : State) (rs : List Reg) : Prop := ∀ r ∈ rs, s.readV (regSlot r) = true

/-! ### What a stage that performs leaves behind (R102, R103) -/

/-- The state after DRF hands the content `l` on: both stall flags cleared, the copy in EX1's latch (R120). -/
def afterDrf (s : State) (l : Latch) : State :=
  { s with
    unit := .drf
    L := { s.L with
      f := { s.L.f with stalled := false }
      drf := { l with stalled := false, done := some .drf }
      ex1 := { l with stalled := false, done := some .drf, isEmpty := s.L.ex1.isEmpty } } }

/-- The state after DRF stalls: the two stall flags and nothing else (R119). -/
def afterDrfStall (s : State) : State :=
  { s with unit := .drf, L := { s.L with f := { s.L.f with stalled := true }, drf := { s.L.drf with stalled := true } } }

/-- The state after EX1 hands the content `l` on, recorded in `e1_done` (R113, R114). -/
def afterEx1 (s : State) (l : Latch) : State :=
  { s with
    unit := .ex1
    e1Done := some l
    L := { s.L with
      ex1 := { l with done := some .ex1 }
      ex2 := { l with done := some .ex1, isEmpty := s.L.ex2.isEmpty } } }

/-- The state after EX2 hands its content on (R111). -/
def afterEx2 (s : State) : State :=
  { s with
    unit := .ex2
    L := { s.L with
      ex2 := { s.L.ex2 with done := some .ex2 }
      mem1 := { s.L.ex2 with done := some .ex2, isEmpty := s.L.mem1.isEmpty } } }

/-- The state after MEM1 hands its content on and empties its own latch (R110). -/
def afterMem1 (s : State) : State :=
  { s with
    unit := .mem1
    L := { s.L with
      mem1 := { s.L.mem1 with done := some .mem1, pc := 0 }
      mem2 := { s.L.mem1 with done := some .mem1, isEmpty := s.L.mem2.isEmpty } } }

/-- The state after MEM2 hands the content `l` on and empties its own latch (R109). -/
def afterMem2 (s : State) (l : Latch) : State :=
  { s with
    unit := .mem2
    L := { s.L with
      mem2 := { l with done := some .mem2, pc := 0 }
      wb := { l with done := some .mem2, isEmpty := s.L.wb.isEmpty } } }

/-- The state after WB performs a counted instruction (R102, R108). -/
def afterWb (s : State) : State :=
  { s with
    unit := .wb
    insCompleted := s.insCompleted + 1
    L := { s.L with wb := { s.L.wb with done := some .wb } } }

/-- The state after a unit raises: the run stopped, the fault recorded, nothing else (R204). -/
def afterRaise (s : State) (u : Stage) (r : Fault) : State :=
  { s with unit := u, runState := .stopped, outcome := .fault r }

/-- The state after Fetch hands the fields `f` on (R122, R123). -/
def afterFetch (s : State) (f : Fields) : State :=
  let n : Latch :=
    { pc := s.pc, fields := f, rs1Value := 0, rs2Value := 0, rs3Value := 0, buffer := 0, memAddress := 0,
      stalled := false, busy := false, isEmpty := false, done := some .f }
  { s with
    unit := .f
    L := { s.L with f := n, drf := { n with isEmpty := s.L.drf.isEmpty } }
    pc := s.pc + 4 }

/-! ### The life of an instruction -/

/-- What the life of an instruction leaves as it was: everything but the register file, the validity bits, the data
memory, the signals, the latches and the two display fields of the model, with the instruction counted. -/
def OnlyCounts (s t : State) : Prop :=
  t.launch = s.launch ∧ t.imem = s.imem ∧ t.pc = s.pc ∧ t.clock = s.clock ∧ t.runState = s.runState ∧
    t.outcome = s.outcome ∧ t.S0 = s.S0 ∧ t.insCompleted = s.insCompleted + 1

/-- No signal is raised or changed. -/
def SameSignals (s t : State) : Prop :=
  t.flushPending = s.flushPending ∧ t.flushTarget = s.flushTarget ∧ t.haltSev = s.haltSev ∧ t.stopReq = s.stopReq

/-- A branch or jump is the occupant of one of the two stages (R112, R118). -/
def Contended (s : State) (u v : Stage) : Prop :=
  ((s.S0.get u).fresh u = true ∧ (s.cls (s.S0.get u)).branchy = true) ∨
    ((s.S0.get v).fresh v = true ∧ (s.cls (s.S0.get v)).branchy = true)

/-- An arithmetic instruction is the occupant of EX1, EX2, MEM1 or MEM2 (R117). -/
def ArithmeticAhead (s : State) : Prop :=
  ∃ u, (u = .ex1 ∨ u = .ex2 ∨ u = .mem1 ∨ u = .mem2) ∧ (s.S0.get u).fresh u = true ∧ s.cls (s.S0.get u) = .arith

/-! ### The pipeline -/

/-- No stage from DRF to WB has a fresh latch and DRF holds Fetch back by no stall. -/
def PipelineEmpty (s : State) : Prop :=
  s.L.drf.stalled = false ∧ ∀ u, u ≠ .f → (s.latch u).fresh u = false

/-- Fetch reads, in this cycle, a word that decodes to `i`: `pc` is an address of the program and the word there is that
of `i` (R50, R122). -/
def FetchesInstr (s : State) (i : Instr) : Prop :=
  s.codeAddrOk s.pc = true ∧ s.pc.toNat < s.endAddr ∧ decodeWord (s.imemAt s.pc) = .ok i

/-- The latch of `u` is fresh at the start of the cycle and holds the instruction `i` (R30, R74). -/
def Holds (s : State) (u : Stage) (i : Instr) : Prop :=
  (s.latch u).fresh u = true ∧ s.content (s.latch u) = .instr i

/-- At the start of a cycle, a BZ, BNZ or JUMP is the occupant of `u` (R30, R74). -/
def BranchyIn (s : State) (u : Stage) : Prop := ∃ i, Holds s u i ∧ i.cls.branchy = true

/-- The CC that EX2 reads in the cycle that starts in `s`: the one WB leaves when an arithmetic instruction is the occupant
of WB (R132). -/
def ccAtEx2 (s : State) : Word :=
  if s.L.wb.fresh .wb = true ∧ s.cls s.L.wb = .arith then (if s.L.wb.buffer = 0 then 1 else 0) else s.readX ccSlot

/-- The occupant of EX2 transfers control to `target`: a BZ or BNZ taken on the CC that EX2 reads, or a JUMP (R111). -/
def TransfersTo (s : State) (target : Word) : Prop :=
  (∃ imm, Holds s .ex2 (.bz imm) ∧ ccAtEx2 s = 1 ∧ target = s.L.ex2.pc + imm) ∨
    (∃ imm, Holds s .ex2 (.bnz imm) ∧ ccAtEx2 s = 0 ∧ target = s.L.ex2.pc + imm) ∨
    (∃ rs1 imm, Holds s .ex2 (.jump rs1 imm) ∧ target = s.L.ex2.buffer)

/-- A HALT in DRF raises the weak halt, or one in EX2 the strong halt (R112, R118). -/
def HaltRaised (s : State) : Prop :=
  (Holds s .drf .halt ∧ ¬ BranchyIn s .ex1 ∧ ¬ BranchyIn s .ex2) ∨
    (Holds s .ex2 .halt ∧ ¬ BranchyIn s .ex1 ∧ ¬ BranchyIn s .drf)

/-- Fetch does not stall and its address is legal, in the cycle that starts in `s`: no unit before it raises, the latch of DRF
is not stalled when Fetch runs (R121), and the address check passes (R124). -/
def FetchHandsOff (s : State) : Prop :=
  s.codeAddrOk s.pc = true ∧
    ∃ m, runUnits [.wb, .mem2, .mem1, .ex2, .ex1, .drf] s.beginCycle = .next m ∧ m.runState = .running ∧
      m.L.drf.stalled = false

/-- The state after a unit that raises a fault later in the cycle than WB: MEM2 on the out-of-range address of the load or
store it holds (R202), or Fetch on an illegal address (R201). -/
def LaterUnitFaults (s t : State) : Prop :=
  ((∃ i a, Holds s .mem2 i ∧ (i.cls = .load ∨ i.cls = .ldr ∨ i.cls = .store ∨ i.cls = .str) ∧
        a = s.L.mem2.memAddress ∧ s.launch.dmemCells ≤ a.toNat ∧ t.outcome = .fault (.dataOutOfRange s.L.mem2.pc a)) ∨
    (s.codeAddrOk s.pc = false ∧ t.outcome = .fault (.fetchOutOfRange s.pc)))

/-- The result of an instruction with one: what it writes to its destination, given the register file and the memory. -/
def resultOf (s : State) : Instr → Word
  | .movc _ imm => imm
  | .add _ rs1 rs2 => s.readX (regSlot rs1) + s.readX (regSlot rs2)
  | .sub _ rs1 rs2 => s.readX (regSlot rs1) - s.readX (regSlot rs2)
  | .mul _ rs1 rs2 => s.readX (regSlot rs1) * s.readX (regSlot rs2)
  | .and _ rs1 rs2 => s.readX (regSlot rs1) &&& s.readX (regSlot rs2)
  | .or _ rs1 rs2 => s.readX (regSlot rs1) ||| s.readX (regSlot rs2)
  | .exOr _ rs1 rs2 => s.readX (regSlot rs1) ^^^ s.readX (regSlot rs2)
  | .load _ rs1 imm => s.cell (s.readX (regSlot rs1) + imm)
  | .ldr _ rs1 rs2 => s.cell (s.readX (regSlot rs1) + s.readX (regSlot rs2))
  | .store _ _ _ => 0
  | .str _ _ _ => 0
  | .bz _ => 0
  | .bnz _ => 0
  | .jump _ _ => 0
  | .halt => 0

/-- The cell a load or store accesses (R171 to R174), if the instruction is one. -/
def accessOf (s : State) : Instr → Option Word
  | .load _ rs1 imm => some (s.readX (regSlot rs1) + imm)
  | .store _ rs2 imm => some (s.readX (regSlot rs2) + imm)
  | .ldr _ rs1 rs2 => some (s.readX (regSlot rs1) + s.readX (regSlot rs2))
  | .str _ rs2 rs3 => some (s.readX (regSlot rs2) + s.readX (regSlot rs3))
  | .movc _ _ => none
  | .add _ _ _ => none
  | .sub _ _ _ => none
  | .mul _ _ _ => none
  | .and _ _ _ => none
  | .or _ _ _ => none
  | .exOr _ _ _ => none
  | .bz _ => none
  | .bnz _ => none
  | .jump _ _ => none
  | .halt => none

/-- The datum a store writes (R170), if the instruction is one. -/
def storedOf (s : State) : Instr → Option Word
  | .store rs1 _ _ => some (s.readX (regSlot rs1))
  | .str rs1 _ _ => some (s.readX (regSlot rs1))
  | .movc _ _ => none
  | .add _ _ _ => none
  | .sub _ _ _ => none
  | .mul _ _ _ => none
  | .and _ _ _ => none
  | .or _ _ _ => none
  | .exOr _ _ _ => none
  | .load _ _ _ => none
  | .ldr _ _ _ => none
  | .bz _ => none
  | .bnz _ => none
  | .jump _ _ => none
  | .halt => none

/-- The register file after an instruction that transfers no control: the destination takes the result, and CC after it
for an arithmetic instruction (R105, R151). -/
def fileAfter (s : State) (i : Instr) : State :=
  match i.dest with
  | none => s
  | some rd =>
    let t := s.writeX (regSlot rd) (resultOf s i)
    if i.cls = .arith then t.writeX ccSlot (if resultOf s i = 0 then 1 else 0) else t

/-- The data memory after an instruction: a store's cell takes its datum (R64). -/
def memoryAfter (s : State) (i : Instr) : DMem :=
  match accessOf s i, storedOf s i with
  | some a, some v => DMem.write s.dmem a.toNat v
  | _, _ => s.dmem

end Sys2Proof.Claims

open Sys2Proof Sys2Proof.Machine Sys2Proof.Claims

/-! ## Encoding -/

/-- Decoding the word of an instruction gives it back, every operand at every value (30_encoding.md R70, R73, R75). -/
def Obligations.DecodeOfEncodeIsTheInstruction : Prop :=
  ∀ i : Instr, decodeWord (encode i) = .ok i

/-- A word decodes to an instruction exactly when its reserved field is 0, its opcode is the instruction's and the fields
the instruction uses hold its operands; the unused fields decide nothing (R73, R75, R76). -/
def Obligations.DecoderReadsExactlyTheUsedFields : Prop :=
  ∀ (f : Fields) (i : Instr), decodeFields f = .ok i ↔ f.resv = 0 ∧ f.op = opcodeOf i ∧ UsedFieldsHold f i

/-- The decoder rejects exactly the ILLEGAL words: an unassigned opcode or a non-zero reserved field (R76, R77). -/
def Obligations.DecoderAcceptsExactlyTheWellFormedWords : Prop :=
  ∀ w : InsnWord, (∃ i, decodeWord w = .ok i) ↔ wordOk w = true

/-- Words of the spec's vectors (95_test_vectors.md L2.1) decode to the instructions they stand for. -/
def Obligations.VectorWordsDecode : Prop :=
  decodeWord 0x01100000FFFFFFFF = .ok (.movc 1 0xFFFFFFFF) ∧
  decodeWord 0x07FED00000000000 = .ok (.exOr 15 14 13) ∧
  decodeWord 0x08320000FFFFFFFE = .ok (.load 3 2 0xFFFFFFFE) ∧
  decodeWord 0x0B02340000000000 = .ok (.str 2 3 4) ∧
  decodeWord 0x0D000000FFFFFFF8 = .ok (.bnz 0xFFFFFFF8) ∧
  decodeWord 0x0FFFFF00FFFFFFFF = .ok .halt ∧
  decodeWord 0x0110000100000001 = .error (.reservedBits 1) ∧
  decodeWord 0x1000000000000000 = .error (.unassignedOpcode 0x10)

/-! ## Reset -/

/-- What reset leaves (70_reset_and_hazards.md R220), every clause a value the spec gives: registers, CC and cells 0, every
validity bit 1, pc at `CODE_BASE`, every latch empty, signals and counters 0, RUNNING. The launch data of this reset state
(`CODE_BASE` itself among them) are the model's choice (notes/assumptions/1.md). -/
def Obligations.ResetLeavesTheSpecsValues : Prop :=
  (∀ i, State.reset.readX i = 0) ∧ (∀ i, State.reset.readV i = true) ∧
  State.reset.pc.toNat = State.reset.launch.codeBase ∧ (∀ a, State.reset.cell a = 0) ∧
  (∀ u, State.reset.latch u =
    { pc := 0, fields := ⟨0, 0, 0, 0, 0, 0, 0⟩, rs1Value := 0, rs2Value := 0, rs3Value := 0, buffer := 0,
      memAddress := 0, stalled := false, busy := false, isEmpty := true, done := none }) ∧
  State.reset.flushPending = false ∧ State.reset.flushTarget = 0 ∧ State.reset.haltSev = .none ∧
  State.reset.e1Done = none ∧ State.reset.stopReq = .none ∧ State.reset.clock = 0 ∧ State.reset.insCompleted = 0 ∧
  State.reset.runState = .running ∧ State.reset.outcome = .none

/-! ## Fetch -/

/-- Fetch at an address of the program, whatever the word there holds: the word at `pc`, split into its fields, goes to the
latches of F and DRF, every other field 0, and pc moves on by 4 (R122). -/
def Obligations.FetchHandsTheWordToDecode : Prop :=
  ∀ (i : Instr) (c : Content) (s : State), s.L.drf.stalled = false → s.launch.codeBase ≤ s.pc.toNat →
    (s.pc.toNat - s.launch.codeBase) % 4 = 0 → s.pc.toNat < s.endAddr →
    ∃ w, s.imem[(s.pc.toNat - s.launch.codeBase) / 4]? = some w ∧
      exec i { s with unit := .f } = .next (afterFetch s (splitWord w)) ∧
      performContent c { s with unit := .f } = .next (afterFetch s (splitWord w))

/-- Fetch at or past the end of the program forms an END latch: `pc` set, every other field 0 (R123). -/
def Obligations.FetchPastTheEndFormsAnEndLatch : Prop :=
  ∀ (c : Content) (s : State), s.L.drf.stalled = false → s.launch.codeBase ≤ s.pc.toNat →
    (s.pc.toNat - s.launch.codeBase) % 4 = 0 → s.endAddr ≤ s.pc.toNat →
    performContent c { s with unit := .f } = .next (afterFetch s ⟨0, 0, 0, 0, 0, 0, 0⟩)

/-- Fetch from below `CODE_BASE` or off the 4-unit grid raises FetchOutOfRange: the run stops with the address recorded, and
pc, the registers and both memories stay (R201, R204). That the raising Fetch leaves its display flag `is_empty` at 1 is the
model's reading of R133 and R204 and no rule's words (DEDUCED, notes/assumptions/8.md). -/
def Obligations.FetchFromAnIllegalAddressEndsTheRun : Prop :=
  ∀ (c : Content) (s : State), s.L.drf.stalled = false →
    (s.pc.toNat < s.launch.codeBase ∨ (s.pc.toNat - s.launch.codeBase) % 4 ≠ 0) →
    performContent c { s with unit := .f } =
      .next (afterRaise { s with L := { s.L with f := { s.L.f with isEmpty := true } } } .f (.fetchOutOfRange s.pc))

/-- A stalled Fetch changes nothing but its display flag, and does not check the address (R121, R124). -/
def Obligations.FetchStallsBehindAStalledDecode : Prop :=
  ∀ (c : Content) (s : State), s.L.drf.stalled = true →
    performContent c { s with unit := .f } =
      .next { s with unit := .f, L := { s.L with f := { s.L.f with isEmpty := true } } }

/-! ## Decode / register read -/

/-- An instruction with an INVALID source stalls DRF: the two stall flags are set and nothing else happens (R116, R119).
BZ and BNZ have no sources. -/
def Obligations.DecodeStallsOnAnInvalidSource : Prop :=
  ∀ (i : Instr) (s : State), (∃ r ∈ sourcesOf i, s.readV (regSlot r) = false) →
    exec i { s with unit := .drf } = .next (afterDrfStall s)

/-- With its sources VALID, an instruction that is neither a conditional branch nor HALT reads them, keeps what the latch
holds of the others, and advances (R116, R120). -/
def Obligations.DecodeReadsValidSourcesAndAdvances : Prop :=
  ∀ (i : Instr) (s : State), i.cls ≠ .branch → i ≠ .halt → AllValid s (sourcesOf i) →
    exec i { s with unit := .drf } = .next (afterDrf s
      { s.L.drf with
        rs1Value := ((sourcesOf i)[0]?.map fun r => s.readX (regSlot r)).getD s.L.drf.rs1Value
        rs2Value := ((sourcesOf i)[1]?.map fun r => s.readX (regSlot r)).getD s.L.drf.rs2Value
        rs3Value := ((sourcesOf i)[2]?.map fun r => s.readX (regSlot r)).getD s.L.drf.rs3Value })

/-- BZ and BNZ stall in DRF exactly while an arithmetic instruction is the occupant of EX1, EX2, MEM1 or MEM2; else they
advance, reading no register (R117, R119, R120). -/
def Obligations.BranchesWaitForArithmeticAhead : Prop :=
  ∀ (imm : Word) (s : State),
    (ArithmeticAhead s →
      exec (.bz imm) { s with unit := .drf } = .next (afterDrfStall s) ∧
      exec (.bnz imm) { s with unit := .drf } = .next (afterDrfStall s)) ∧
    (¬ ArithmeticAhead s →
      exec (.bz imm) { s with unit := .drf } = .next (afterDrf s s.L.drf) ∧
      exec (.bnz imm) { s with unit := .drf } = .next (afterDrf s s.L.drf))

/-- HALT never stalls in DRF; it raises the weak halt unless a branch or jump is the occupant of EX1 or EX2 (R118, R120,
R184). -/
def Obligations.HaltInDecodeRaisesTheWeakHalt : Prop :=
  ∀ s : State,
    (¬ Contended s .ex1 .ex2 → exec .halt { s with unit := .drf } =
      .next (afterDrf { s with haltSev := if s.haltSev = .strong then .strong else .weak } s.L.drf)) ∧
    (Contended s .ex1 .ex2 → exec .halt { s with unit := .drf } = .next (afterDrf s s.L.drf))

/-! ## Execute 1 -/

/-- EX1 of an arithmetic instruction invalidates `rd` and puts the result into the buffer: sum, difference and product are
the exact integer results taken modulo 2^32, AND, OR and EX-OR are bitwise (R9, R113, R152 to R157). -/
def Obligations.ArithmeticResultsInExecute1 : Prop :=
  ∀ (rd rs1 rs2 : Reg) (s : State) (a b : Word), a = s.L.ex1.rs1Value → b = s.L.ex1.rs2Value →
    exec (.add rd rs1 rs2) { s with unit := .ex1 } =
      .next (afterEx1 (s.writeV (regSlot rd) false) { s.L.ex1 with buffer := BitVec.ofNat 32 (a.toNat + b.toNat) }) ∧
    exec (.sub rd rs1 rs2) { s with unit := .ex1 } =
      .next (afterEx1 (s.writeV (regSlot rd) false) { s.L.ex1 with buffer := BitVec.ofInt 32 (a.toNat - b.toNat) }) ∧
    exec (.mul rd rs1 rs2) { s with unit := .ex1 } =
      .next (afterEx1 (s.writeV (regSlot rd) false) { s.L.ex1 with buffer := BitVec.ofNat 32 (a.toNat * b.toNat) }) ∧
    (∃ r : Word, (∀ k, r.getLsbD k = (a.getLsbD k && b.getLsbD k)) ∧
      exec (.and rd rs1 rs2) { s with unit := .ex1 } =
        .next (afterEx1 (s.writeV (regSlot rd) false) { s.L.ex1 with buffer := r })) ∧
    (∃ r : Word, (∀ k, r.getLsbD k = (a.getLsbD k || b.getLsbD k)) ∧
      exec (.or rd rs1 rs2) { s with unit := .ex1 } =
        .next (afterEx1 (s.writeV (regSlot rd) false) { s.L.ex1 with buffer := r })) ∧
    (∃ r : Word, (∀ k, r.getLsbD k = Bool.xor (a.getLsbD k) (b.getLsbD k)) ∧
      exec (.exOr rd rs1 rs2) { s with unit := .ex1 } =
        .next (afterEx1 (s.writeV (regSlot rd) false) { s.L.ex1 with buffer := r }))

/-- EX1 of the other instructions (R113): MOVC puts its immediate into the buffer and invalidates `rd`; loads compute their
address and invalidate `rd`; stores compute their address; JUMP computes its target; BZ, BNZ and HALT compute nothing.
Every sum is modulo 2^32. -/
def Obligations.MovesAddressesAndTargetsInExecute1 : Prop :=
  ∀ (r r1 r2 : Reg) (imm : Word) (s : State),
    exec (.movc r imm) { s with unit := .ex1 } =
      .next (afterEx1 (s.writeV (regSlot r) false) { s.L.ex1 with buffer := imm }) ∧
    exec (.load r r1 imm) { s with unit := .ex1 } =
      .next (afterEx1 (s.writeV (regSlot r) false)
        { s.L.ex1 with memAddress := BitVec.ofNat 32 (s.L.ex1.rs1Value.toNat + imm.toNat) }) ∧
    exec (.store r1 r2 imm) { s with unit := .ex1 } =
      .next (afterEx1 s { s.L.ex1 with memAddress := BitVec.ofNat 32 (s.L.ex1.rs2Value.toNat + imm.toNat) }) ∧
    exec (.ldr r r1 r2) { s with unit := .ex1 } =
      .next (afterEx1 (s.writeV (regSlot r) false)
        { s.L.ex1 with memAddress := BitVec.ofNat 32 (s.L.ex1.rs1Value.toNat + s.L.ex1.rs2Value.toNat) }) ∧
    exec (.str r r1 r2) { s with unit := .ex1 } =
      .next (afterEx1 s
        { s.L.ex1 with memAddress := BitVec.ofNat 32 (s.L.ex1.rs2Value.toNat + s.L.ex1.rs3Value.toNat) }) ∧
    exec (.jump r1 imm) { s with unit := .ex1 } =
      .next (afterEx1 s { s.L.ex1 with buffer := BitVec.ofNat 32 (s.L.ex1.rs1Value.toNat + imm.toNat) }) ∧
    exec (.bz imm) { s with unit := .ex1 } = .next (afterEx1 s s.L.ex1) ∧
    exec (.bnz imm) { s with unit := .ex1 } = .next (afterEx1 s s.L.ex1) ∧
    exec .halt { s with unit := .ex1 } = .next (afterEx1 s s.L.ex1)

/-! ## Execute 2 -/

/-- EX2 of a conditional branch (R111): BZ is taken when CC is 1, BNZ when it is 0; taken, it asks for a flush to its own pc
plus its immediate, modulo 2^32; not taken, it asks for nothing. -/
def Obligations.BranchesResolveInExecute2 : Prop :=
  ∀ (imm : Word) (s : State) (target : Word), target = BitVec.ofNat 32 (s.L.ex2.pc.toNat + imm.toNat) →
    (s.readX ccSlot = 1 → exec (.bz imm) { s with unit := .ex2 } =
      .next (afterEx2 { s with flushPending := true, flushTarget := target })) ∧
    (s.readX ccSlot ≠ 1 → exec (.bz imm) { s with unit := .ex2 } = .next (afterEx2 s)) ∧
    (s.readX ccSlot = 0 → exec (.bnz imm) { s with unit := .ex2 } =
      .next (afterEx2 { s with flushPending := true, flushTarget := target })) ∧
    (s.readX ccSlot ≠ 0 → exec (.bnz imm) { s with unit := .ex2 } = .next (afterEx2 s))

/-- EX2 of a JUMP always asks for a flush to the target EX1 left in the buffer (R111, R183). -/
def Obligations.JumpsResolveInExecute2 : Prop :=
  ∀ (rs1 : Reg) (imm : Word) (s : State), exec (.jump rs1 imm) { s with unit := .ex2 } =
    .next (afterEx2 { s with flushPending := true, flushTarget := s.L.ex2.buffer })

/-- EX2 of a HALT raises the strong halt unless a branch or jump is the occupant of EX1 or DRF (R112). -/
def Obligations.HaltInExecute2RaisesTheStrongHalt : Prop :=
  ∀ s : State,
    (¬ Contended s .ex1 .drf → exec .halt { s with unit := .ex2 } = .next (afterEx2 { s with haltSev := .strong })) ∧
    (Contended s .ex1 .drf → exec .halt { s with unit := .ex2 } = .next (afterEx2 s))

/-! ## Memory -/

/-- MEM1 has no effect whatever it holds: the content goes to MEM2 and MEM1's own latch is emptied (R110). -/
def Obligations.Memory1OnlyPassesOn : Prop :=
  ∀ (c : Content) (s : State), performContent c { s with unit := .mem1 } = .next (afterMem1 s)

/-- A stage only passes on a content that has no work there: EX2 what is no control transfer, MEM2 what is no load and no
store, ILLEGAL and END contents among them; and an ILLEGAL or END content has no work in DRF and EX1 either: DRF never
stalls it, EX1 invalidates no register and computes nothing (R77, R78, R109, R111, R113, R116). -/
def Obligations.StagesPassOnOtherInstructions : Prop :=
  (∀ (c : Content) (s : State),
    (c.cls ≠ .branch → c.cls ≠ .jump → c.cls ≠ .halt → performContent c { s with unit := .ex2 } = .next (afterEx2 s)) ∧
    (c.cls ≠ .load → c.cls ≠ .ldr → c.cls ≠ .store → c.cls ≠ .str →
      performContent c { s with unit := .mem2 } = .next (afterMem2 s s.L.mem2)) ∧
    (c.cls = .illegal ∨ c.cls = .endOfCode →
      performContent c { s with unit := .drf } = .next (afterDrf s s.L.drf) ∧
      performContent c { s with unit := .ex1 } = .next (afterEx1 s s.L.ex1))) ∧
  (∀ (i : Instr) (s : State),
    (i.cls ≠ .branch → i.cls ≠ .jump → i.cls ≠ .halt → exec i { s with unit := .ex2 } = .next (afterEx2 s)) ∧
    (i.cls ≠ .load → i.cls ≠ .ldr → i.cls ≠ .store → i.cls ≠ .str →
      exec i { s with unit := .mem2 } = .next (afterMem2 s s.L.mem2)))

/-- A load in MEM2 with its address in range puts the whole cell into the buffer; no cell changes (R64, R109, R170). -/
def Obligations.LoadsReadTheirCell : Prop :=
  ∀ (rd rs1 rs2 : Reg) (imm : Word) (s : State), s.L.mem2.memAddress.toNat < s.launch.dmemCells →
    exec (.load rd rs1 imm) { s with unit := .mem2 } =
      .next (afterMem2 s { s.L.mem2 with buffer := s.cell s.L.mem2.memAddress }) ∧
    exec (.ldr rd rs1 rs2) { s with unit := .mem2 } =
      .next (afterMem2 s { s.L.mem2 with buffer := s.cell s.L.mem2.memAddress })

/-- A store in MEM2 with its address in range writes its first source's value to the cell at `mem_address`; every other
cell reads as before, and nothing else but the latches changes (R64, R109, R170). The memory is in its canonical form. -/
def Obligations.StoresWriteTheirCellAndNoOther : Prop :=
  ∀ (rs1 rs2 rs3 : Reg) (imm : Word) (s : State), s.dmem.wf = true → s.L.mem2.memAddress.toNat < s.launch.dmemCells →
    ∃ t, exec (.store rs1 rs2 imm) { s with unit := .mem2 } = .next t ∧
      exec (.str rs1 rs2 rs3) { s with unit := .mem2 } = .next t ∧
      t = { afterMem2 s s.L.mem2 with dmem := t.dmem } ∧
      t.cell s.L.mem2.memAddress = s.L.mem2.rs1Value ∧
      ∀ a, a ≠ s.L.mem2.memAddress → t.cell a = s.cell a

/-- A load or store whose cell index is at or past `DMEM_CELLS` raises DataOutOfRange in MEM2, recording its pc and the
index: the run stops, no cell is read or written, no latch moves (R202, R204). -/
def Obligations.OutOfRangeAccessEndsTheRun : Prop :=
  ∀ (r1 r2 r3 : Reg) (imm : Word) (s : State) (t : State), s.launch.dmemCells ≤ s.L.mem2.memAddress.toNat →
    t = afterRaise s .mem2 (.dataOutOfRange s.L.mem2.pc s.L.mem2.memAddress) →
    exec (.load r1 r2 imm) { s with unit := .mem2 } = .next t ∧
    exec (.store r1 r2 imm) { s with unit := .mem2 } = .next t ∧
    exec (.ldr r1 r2 r3) { s with unit := .mem2 } = .next t ∧
    exec (.str r1 r2 r3) { s with unit := .mem2 } = .next t

/-! ## Writeback -/

/-- WB of MOVC, LOAD and LDR: `rd` takes the buffer and becomes VALID, the instruction is counted, CC stays (R105, R108,
R160, R171, R173). -/
def Obligations.ResultsCommitInWriteback : Prop :=
  ∀ (rd rs1 rs2 : Reg) (imm : Word) (s t : State),
    t = afterWb ((s.writeV (regSlot rd) true).writeX (regSlot rd) s.L.wb.buffer) →
    exec (.movc rd imm) { s with unit := .wb } = .next t ∧
    exec (.load rd rs1 imm) { s with unit := .wb } = .next t ∧
    exec (.ldr rd rs1 rs2) { s with unit := .wb } = .next t

/-- WB of an arithmetic instruction: `rd` takes the buffer and becomes VALID, then CC becomes 1 if the buffer is 0 and 0
otherwise, and the instruction is counted (R105, R151); and CC is changed by nothing else an instruction does in any
stage. -/
def Obligations.OnlyArithmeticWritebackWritesCc : Prop :=
  (∀ (i : Instr) (rd : Reg) (s : State), i.cls = .arith → i.dest = some rd →
    exec i { s with unit := .wb } =
      .next (afterWb (((s.writeV (regSlot rd) true).writeX (regSlot rd) s.L.wb.buffer).writeX ccSlot
        (if s.L.wb.buffer = 0 then 1 else 0)))) ∧
  (∀ (i : Instr) (s t : State), exec i s = .next t → i.cls ≠ .arith ∨ s.unit ≠ .wb →
    t.readX ccSlot = s.readX ccSlot)

/-- WB of STORE, STR, BZ, BNZ and JUMP has no register-file effect: the instruction is counted (R105, R108). -/
def Obligations.OthersCommitNoRegister : Prop :=
  ∀ (r1 r2 r3 : Reg) (imm : Word) (s : State),
    exec (.store r1 r2 imm) { s with unit := .wb } = .next (afterWb s) ∧
    exec (.str r1 r2 r3) { s with unit := .wb } = .next (afterWb s) ∧
    exec (.bz imm) { s with unit := .wb } = .next (afterWb s) ∧
    exec (.bnz imm) { s with unit := .wb } = .next (afterWb s) ∧
    exec (.jump r1 imm) { s with unit := .wb } = .next (afterWb s)

/-- WB of HALT sets the stop request and is counted (R106, R108). -/
def Obligations.HaltInWritebackRequestsTheStop : Prop :=
  ∀ s : State, exec .halt { s with unit := .wb } = .next (afterWb { s with stopReq := .halt })

/-! ## Frames -/

/-- What an instruction leaves unchanged, by the stage it is in (R20, R22, R24, R26, R61): the launch data, the instruction
store, the clock and the snapshot always; pc except in F; the data memory except for a store in MEM2, and there every
cell but the one at `mem_address`; the registers and CC except in WB, and there every slot but the destination and, for an
arithmetic instruction, CC; the validity bits except in EX1 and WB, and there every bit but the destination's; the run state
and outcome except in F and MEM2; `halt_sev` and `stop_req` except for HALT; the flush signal except for a branch or jump
in EX2; `e1_done` except in EX1; and every latch but that of the stage, of the stage downstream and, in DRF, of F. -/
def Obligations.ExecFrame : Prop :=
  ∀ (i : Instr) (s t : State), s.dmem.wf = true → exec i s = .next t →
    t.launch = s.launch ∧ t.imem = s.imem ∧ t.clock = s.clock ∧ t.S0 = s.S0 ∧ t.unit = s.unit ∧
    (s.unit ≠ .f → t.pc = s.pc) ∧
    (s.unit ≠ .mem2 ∨ (i.cls ≠ .store ∧ i.cls ≠ .str) → t.dmem = s.dmem) ∧
    (s.unit = .mem2 → ∀ a, a ≠ s.L.mem2.memAddress → t.cell a = s.cell a) ∧
    (s.unit ≠ .wb → t.x = s.x) ∧
    (∀ j, (∀ rd, i.dest = some rd → j ≠ regSlot rd) → (i.cls = .arith → j ≠ ccSlot) → t.readX j = s.readX j) ∧
    (s.unit ≠ .ex1 → s.unit ≠ .wb → t.valid = s.valid) ∧
    (∀ j, (∀ rd, i.dest = some rd → j ≠ regSlot rd) → t.readV j = s.readV j) ∧
    (s.unit ≠ .f → s.unit ≠ .mem2 → t.runState = s.runState ∧ t.outcome = s.outcome) ∧
    (i ≠ .halt → t.haltSev = s.haltSev ∧ t.stopReq = s.stopReq) ∧
    (s.unit ≠ .ex2 ∨ (i.cls ≠ .branch ∧ i.cls ≠ .jump) →
      t.flushPending = s.flushPending ∧ t.flushTarget = s.flushTarget) ∧
    (s.unit ≠ .wb → t.insCompleted = s.insCompleted) ∧
    (s.unit ≠ .ex1 → t.e1Done = s.e1Done) ∧
    (∀ v, v ≠ .f → v ≠ s.unit → s.unit.downstream ≠ some v → t.latch v = s.latch v) ∧
    (s.unit ≠ .f → s.unit ≠ .drf → t.L.f = s.L.f)

/-! ## The life of an instruction -/

/-- An arithmetic instruction with valid sources, through its stages: `rd` takes the result of the old sources, CC says
whether it is zero, `rd` is VALID, nothing else of the machine changes (R150 to R157). -/
def Obligations.LifeOfArithmetic : Prop :=
  ∀ (i : Instr) (rd : Reg) (s : State), i.cls = .arith → i.dest = some rd → AllValid s (sourcesOf i) →
    ∃ t, life i s = .next t ∧
      t.x = ((s.writeX (regSlot rd) (resultOf s i)).writeX ccSlot (if resultOf s i = 0 then 1 else 0)).x ∧
      t.valid = (s.writeV (regSlot rd) true).valid ∧ t.dmem = s.dmem ∧ SameSignals s t ∧ OnlyCounts s t

/-- MOVC through its stages: `rd` takes the immediate and is VALID; CC and everything else stay (R160). -/
def Obligations.LifeOfMove : Prop :=
  ∀ (rd : Reg) (imm : Word) (s : State),
    ∃ t, life (.movc rd imm) s = .next t ∧ t.x = (s.writeX (regSlot rd) imm).x ∧
      t.valid = (s.writeV (regSlot rd) true).valid ∧ t.dmem = s.dmem ∧ SameSignals s t ∧ OnlyCounts s t

/-- A load with valid sources and its cell in range, through its stages: `rd` takes the cell and is VALID; CC, the memory
and everything else stay (R170, R171, R173). -/
def Obligations.LifeOfLoads : Prop :=
  ∀ (i : Instr) (rd : Reg) (a : Word) (s : State), i.cls = .load ∨ i.cls = .ldr → i.dest = some rd →
    AllValid s (sourcesOf i) → accessOf s i = some a → a.toNat < s.launch.dmemCells →
    ∃ t, life i s = .next t ∧ t.x = (s.writeX (regSlot rd) (s.cell a)).x ∧
      t.valid = (s.writeV (regSlot rd) true).valid ∧ t.dmem = s.dmem ∧ SameSignals s t ∧ OnlyCounts s t

/-- A store with valid sources and its cell in range, through its stages: the cell takes the first source's value, every
other cell reads as before, no register, no validity bit and nothing else changes (R170, R172, R174). -/
def Obligations.LifeOfStores : Prop :=
  ∀ (i : Instr) (a v : Word) (s : State), i.cls = .store ∨ i.cls = .str → s.dmem.wf = true →
    AllValid s (sourcesOf i) → accessOf s i = some a → storedOf s i = some v → a.toNat < s.launch.dmemCells →
    ∃ t, life i s = .next t ∧ t.x = s.x ∧ t.valid = s.valid ∧ t.cell a = v ∧ (∀ b, b ≠ a → t.cell b = s.cell b) ∧
      SameSignals s t ∧ OnlyCounts s t

/-- A conditional branch that no arithmetic instruction holds back, through its stages: taken (BZ on CC = 1, BNZ on CC = 0)
it asks for a flush to its own pc plus its immediate; not taken it asks for none; no register, no validity bit and no cell
changes (R180 to R182). -/
def Obligations.LifeOfBranches : Prop :=
  ∀ (i : Instr) (imm : Word) (taken : Bool) (s : State), ¬ ArithmeticAhead s →
    (i = .bz imm ∧ taken = decide (s.readX ccSlot = 1)) ∨ (i = .bnz imm ∧ taken = decide (s.readX ccSlot = 0)) →
    ∃ t, life i s = .next t ∧ t.x = s.x ∧ t.valid = s.valid ∧ t.dmem = s.dmem ∧ OnlyCounts s t ∧
      t.haltSev = s.haltSev ∧ t.stopReq = s.stopReq ∧
      t.flushPending = (taken || s.flushPending) ∧
      t.flushTarget = if taken then s.L.drf.pc + imm else s.flushTarget

/-- A JUMP with a valid base, through its stages: it asks for a flush to `x[rs1] + imm`; no register, no validity bit and no
cell changes (R180, R183). -/
def Obligations.LifeOfJump : Prop :=
  ∀ (rs1 : Reg) (imm : Word) (s : State), s.readV (regSlot rs1) = true →
    ∃ t, life (.jump rs1 imm) s = .next t ∧ t.x = s.x ∧ t.valid = s.valid ∧ t.dmem = s.dmem ∧ OnlyCounts s t ∧
      t.haltSev = s.haltSev ∧ t.stopReq = s.stopReq ∧
      t.flushPending = true ∧ t.flushTarget = s.readX (regSlot rs1) + imm

/-- An uncontended HALT through its stages: the strong halt is raised, the stop is requested, no register, no validity bit
and no cell changes (R184). -/
def Obligations.LifeOfHalt : Prop :=
  ∀ s : State, ¬ Contended s .ex1 .ex2 → ¬ Contended s .ex1 .drf →
    ∃ t, life .halt s = .next t ∧ t.x = s.x ∧ t.valid = s.valid ∧ t.dmem = s.dmem ∧ OnlyCounts s t ∧
      t.haltSev = .strong ∧ t.stopReq = .halt ∧ t.flushPending = s.flushPending ∧ t.flushTarget = s.flushTarget

/-! ## The step -/

/-- A cycle runs the stage units WB, MEM2, MEM1, EX2, EX1, DRF, F in turn, after the snapshot and before reconciliation and
the end of the cycle (R100). A unit from DRF to WB whose latch is fresh performs the content of its latch, which is `exec` of
the instruction where the latch decodes to one (R102); one whose latch is not fresh changes nothing but its display flag
(R104, R133). The F unit runs `exec` of the instruction at pc, or handles an ILLEGAL word or the end of the program. No unit
runs after a raise (R204). The current-unit field that each unit sets, and `exec` of the instruction at pc in F, are the
model's choice (DESIGN CHOICE, notes/assumptions/3.md); that the display flag is written when the unit begins, before it may
raise, is the model's reading of R133 and R204 (DEDUCED, notes/assumptions/8.md). -/
def Obligations.StepRunsTheDecodedInstructions : Prop :=
  (∀ s : State, s.CycleNext → step s =
    andThen (runUnits [.wb, .mem2, .mem1, .ex2, .ex1, .drf, .f] s.beginCycle) fun t => .next t.finishCycle) ∧
  (∀ (u : Stage) (us : List Stage) (s : State), runUnits (u :: us) s = andThen (runUnit u s) (runUnits us)) ∧
  (∀ (u : Stage) (i : Instr) (s : State), u ≠ .f → s.runState = .running → (s.S0.get u).fresh u = true →
    s.content (s.latch u) = .instr i →
    runUnit u s = exec i { s with unit := u, L := s.L.set u { s.latch u with isEmpty := false } }) ∧
  (∀ (u : Stage) (c : Content) (s : State), u ≠ .f → s.runState = .running → (s.S0.get u).fresh u = true →
    s.content (s.latch u) = c →
    runUnit u s = performContent c { s with unit := u, L := s.L.set u { s.latch u with isEmpty := false } }) ∧
  (∀ (u : Stage) (s : State), u ≠ .f → s.runState = .running → (s.S0.get u).fresh u = false →
    runUnit u s = .next { s with unit := u, L := s.L.set u { s.latch u with isEmpty := true } }) ∧
  (∀ (i : Instr) (s : State), s.runState = .running → s.pc.toNat < s.endAddr →
    decodeWord (s.imemAt s.pc) = .ok i → runUnit .f s = exec i { s with unit := .f }) ∧
  (∀ (e : DecodeError) (s : State), s.runState = .running → s.pc.toNat < s.endAddr →
    decodeWord (s.imemAt s.pc) = .error e → runUnit .f s = performContent .illegal { s with unit := .f }) ∧
  (∀ s : State, s.runState = .running → s.endAddr ≤ s.pc.toNat →
    runUnit .f s = performContent .endOfCode { s with unit := .f }) ∧
  (∀ (u : Stage) (s : State), s.runState = .stopped → runUnit u s = .next s)

/-- From an empty pipeline with an instruction at pc, the step is that instruction's `exec` in F and the clock: its fetch
is the whole cycle (R100, R122, R129). -/
def Obligations.StepFromAnEmptyPipelineFetches : Prop :=
  ∀ (i : Instr) (s : State), s.CycleNext → PipelineEmpty s → FetchesInstr s i →
    ∃ m t, exec i m = .next t ∧ m.unit = .f ∧ m.imem = s.imem ∧ m.launch = s.launch ∧ m.pc = s.pc ∧
      step s = .next { t with clock := s.clock + 1 } ∧
      t.pc = s.pc + 4 ∧ t.x = s.x ∧ t.valid = s.valid ∧ t.dmem = s.dmem ∧
      t.L.drf.fields = splitWord (s.imemAt s.pc) ∧ t.L.drf.pc = s.pc ∧ t.L.drf.done = some .f

/-- Once STOPPED, no cycle runs and no state changes (R35, R216). -/
def Obligations.StoppedMachineHoldsItsState : Prop :=
  ∀ s : State, s.runState = .stopped → step s = .next s

/-- At the bound no cycle runs: the run stops with CYCLE_BOUND and everything else stays (R130, R213). -/
def Obligations.CycleBoundEndsTheRun : Prop :=
  ∀ s : State, s.runState = .running → s.launchOk = true → s.launch.maxCycles ≤ s.clock →
    step s = .next { s with runState := .stopped, outcome := .cycleBound }

/-- Every step of a launch the host may start answers a next state: no instruction word, no address and no operand makes
the machine stop without one. That a fault of the block is a next state, and that `step` answers a fault of its own,
`loadFailure` or `parametersOutOfRange`, for a launch the host may not start, are the model's choice (DESIGN CHOICE,
notes/assumptions/6.md); the spec says of such a launch only that no cycle runs (60_exceptions.md section 3). -/
def Obligations.EveryStepCompletes : Prop :=
  ∀ s : State, (s.launchOk = true → ∃ t, step s = .next t) ∧
    (s.runState = .running → s.launchOk = false →
      step s = .fault .loadFailure ∨ step s = .fault .parametersOutOfRange)

/-- No step changes the launch data or the instruction store: stores never reach it (R25, R61). -/
def Obligations.StepKeepsTheProgram : Prop :=
  ∀ s t : State, step s = .next t → t.launch = s.launch ∧ t.imem = s.imem

/-! ## Invariants -/

/-- Every step keeps the structural invariant of the machine (Safety.lean, `CoreInv`): the memory canonical and in range,
CC 0 or 1, CC's slot VALID, `busy` 0, no stall below DRF, a stalled DRF fresh, an outcome exactly when stopped, the signals
cleared between cycles, the clock at most the bound. -/
def Obligations.StepKeepsTheCoreInvariant : Prop :=
  ∀ s t : State, s.CoreInv → step s = .next t → t.CoreInv

/-- The structural invariant holds at reset. -/
def Obligations.ResetHasTheCoreInvariant : Prop := State.reset.CoreInv

/-- With `FLUSH_RESTORES_VALID`, every step keeps this: no register is INVALID without a writer in flight, across stalls,
flushes, halts and faults (R22, R23, R127). -/
def Obligations.InvalidRegistersHaveAWriterInFlight : Prop :=
  ∀ s t : State, s.launch.flushRestoresValid = true → s.InvalidHasWriter → step s = .next t → t.InvalidHasWriter

/-- Reset has the property that InvalidRegistersHaveAWriterInFlight says every step keeps: no register is INVALID without a
writer in flight (R23, R220). It is the base case of that invariant; ResetLeavesTheSpecsValues says that every register is
VALID at reset. -/
def Obligations.ResetHasTheWriterInFlightProperty : Prop := State.reset.InvalidHasWriter

/-! ## Whole-machine rules -/

/-- The cycle built from the meanings of the instructions is the cycle of the stage-by-stage pseudocode (R138), with the
display flags of R133 that the listing leaves out, state for state, but for the model's own record of the unit that ran
last. Where `is_empty` stands after a raise, and what `e1_done`, `stop_req` and the signals keep after the cycle, are on both
sides the model's reading of the rules and not R138's words (DEDUCED, notes/assumptions/8.md and 11.md). -/
def Obligations.CycleAgreesWithThePseudocode : Prop :=
  ∀ s : State, ∃ t, cycle s = .next t ∧ { t with unit := s.unit } = { s.refCycle with unit := s.unit }

/-- An instruction that is alone in the pipeline and last in the program, and transfers no control, completes in 7 cycles
(R136, R230): fetched in the first, its result is in the register file or its datum in memory after the seventh, exactly
as its rule says, every register VALID, the memory otherwise as before, one instruction counted, and the run still on. -/
def Obligations.LoneInstructionCompletesInSevenCycles : Prop :=
  ∀ (i : Instr) (s : State), s.runState = .running → s.launchOk = true → s.clock + 7 ≤ s.launch.maxCycles →
    PipelineEmpty s → (∀ j, s.readV j = true) → FetchesInstr s i → s.pc.toNat + 4 = s.endAddr →
    i.cls ≠ .branch → i.cls ≠ .jump → i.cls ≠ .halt →
    (∀ a, accessOf s i = some a → a.toNat < s.launch.dmemCells) →
    ∃ t, Reaches 7 s t ∧ t.x = (fileAfter s i).x ∧ t.valid = s.valid ∧ t.dmem = memoryAfter s i ∧
      t.insCompleted = s.insCompleted + 1 ∧ t.clock = s.clock + 7 ∧ t.runState = .running

/-- In no cycle is a flush pending together with a halt of either severity, at the end of the stage units (R135). -/
def Obligations.FlushAndHaltExcludeEachOther : Prop :=
  ∀ s t : State, runUnits [.wb, .mem2, .mem1, .ex2, .ex1, .drf, .f] s.beginCycle = .next t →
    t.flushPending = true → t.haltSev = .none

/-- A JUMP in EX2, or a BZ or BNZ there that is taken on the CC that EX2 reads (the one WB leaves when an arithmetic
instruction is in WB, R132), redirects pc to its target at the end of the cycle and empties the latches of F, DRF, EX1 and
EX2, unless the cycle ends in a fault (R111, R125, R180). -/
def Obligations.TakenTransfersFlushFourStages : Prop :=
  ∀ (i : Instr) (target cc : Word) (s t : State), s.CycleNext → Holds s .ex2 i →
    cc = (if (s.L.wb.fresh .wb && decide (s.cls s.L.wb = .arith)) = true then (if s.L.wb.buffer = 0 then 1 else 0)
      else s.readX ccSlot) →
    (∃ imm, i = .bz imm ∧ cc = 1 ∧ target = s.L.ex2.pc + imm) ∨
      (∃ imm, i = .bnz imm ∧ cc = 0 ∧ target = s.L.ex2.pc + imm) ∨
      (∃ rs1 imm, i = .jump rs1 imm ∧ target = s.L.ex2.buffer) →
    step s = .next t → (∀ r, t.outcome ≠ .fault r) →
    t.pc = target ∧ t.L.f.pc = 0 ∧ t.L.drf.pc = 0 ∧ t.L.ex1.pc = 0 ∧ t.L.ex2.pc = 0

/-- An uncontended HALT redirects pc to `END_ADDR` at the end of the cycle, unless the cycle ends in a fault: in DRF, with no
branch or jump the occupant of EX1 or EX2, it empties the latches of F and DRF; in EX2, with none the occupant of EX1 or
DRF, those of EX1 and EX2 as well (R112, R118, R126). -/
def Obligations.UncontendedHaltsRedirectToTheEnd : Prop :=
  ∀ s t : State, s.CycleNext → step s = .next t → (∀ r, t.outcome ≠ .fault r) →
    (Holds s .drf .halt → ¬ BranchyIn s .ex1 → ¬ BranchyIn s .ex2 →
      t.pc = BitVec.ofNat 32 s.endAddr ∧ t.L.f.pc = 0 ∧ t.L.drf.pc = 0) ∧
    (Holds s .ex2 .halt → ¬ BranchyIn s .ex1 → ¬ BranchyIn s .drf →
      t.pc = BitVec.ofNat 32 s.endAddr ∧ t.L.f.pc = 0 ∧ t.L.drf.pc = 0 ∧ t.L.ex1.pc = 0 ∧ t.L.ex2.pc = 0)

/-- A taken BZ or BNZ, a JUMP or an uncontended HALT in EX2 discards the instruction that EX1 processes in the same cycle: its
destination ends the cycle VALID when `FLUSH_RESTORES_VALID` holds and INVALID when it does not, unless the cycle ends in a
fault (R125, R126, R127, R227). -/
def Obligations.DiscardedWriterIsRevalidatedIfConfigured : Prop :=
  ∀ (j : Instr) (rd : Reg) (s t : State), s.CycleNext → Holds s .ex1 j → j.dest = some rd →
    (∃ target, TransfersTo s target) ∨ (Holds s .ex2 .halt ∧ ¬ BranchyIn s .drf) →
    step s = .next t → (∀ r, t.outcome ≠ .fault r) →
    t.readV (regSlot rd) = s.launch.flushRestoresValid

/-- A fresh latch of EX2, MEM1 or MEM2 is handed on in the cycle, whatever DRF does: the stage downstream then holds the
same instruction, fresh (R103, R136, R137), unless the cycle ends in a fault. -/
def Obligations.InstructionsMoveDownEachCycle : Prop :=
  ∀ (u d : Stage) (s t : State), s.CycleNext → (u = .ex2 ∧ d = .mem1) ∨ (u = .mem1 ∧ d = .mem2) ∨ (u = .mem2 ∧ d = .wb) →
    (s.latch u).fresh u = true → step s = .next t → (∀ r, t.outcome ≠ .fault r) →
    (t.latch d).fresh d = true ∧ (t.latch d).pc = (s.latch u).pc ∧ (t.latch d).fields = (s.latch u).fields

/-- A register or CC changes in a step only by the writeback of the instruction in WB: a slot that reads otherwise after it
is that instruction's destination and holds its buffer, or is CC and the instruction is arithmetic (R20, R21, R105). -/
def Obligations.RegistersChangeOnlyInWriteback : Prop :=
  ∀ (j : Slot) (s t : State), step s = .next t → t.readX j ≠ s.readX j →
    ∃ i, Holds s .wb i ∧
      ((∃ rd, i.dest = some rd ∧ regSlot rd = j ∧ t.readX j = s.L.wb.buffer) ∨
        (j = ccSlot ∧ i.cls = .arith ∧ t.readX j = if s.L.wb.buffer = 0 then 1 else 0))

/-- A cell changes in a step only by the store in MEM2: a cell that reads otherwise after it is the one at the store's
`mem_address`, in range, and holds the store's first-source value (R26, R57, R61, R109). -/
def Obligations.CellsChangeOnlyByAStore : Prop :=
  ∀ (a : Word) (s t : State), s.dmem.wf = true → step s = .next t → t.cell a ≠ s.cell a →
    ∃ i, Holds s .mem2 i ∧ (i.cls = .store ∨ i.cls = .str) ∧ a = s.L.mem2.memAddress ∧
      a.toNat < s.launch.dmemCells ∧ t.cell a = s.L.mem2.rs1Value

/-- `ins_completed` grows by one in a cycle exactly when an instruction, HALT included, is the occupant of WB, and by
nothing otherwise: END and ILLEGAL are not counted (R108). -/
def Obligations.WritebackCountsEveryInstruction : Prop :=
  ∀ s t : State, s.CycleNext → step s = .next t →
    ((∃ i, Holds s .wb i) → t.insCompleted = s.insCompleted + 1) ∧
    ((¬ ∃ i, Holds s .wb i) → t.insCompleted = s.insCompleted)

/-- The clock counts the cycles that do not stop the run: one that ends RUNNING increments it, one that ends STOPPED, by a
stop request or a fault, does not (R129, R204). -/
def Obligations.ClockCountsCyclesThatDoNotStop : Prop :=
  ∀ s t : State, s.CycleNext → step s = .next t →
    (t.runState = .running → t.clock = s.clock + 1) ∧ (t.runState = .stopped → t.clock = s.clock)

/-- An ILLEGAL word in WB ends the run with IllegalInstruction, recording its pc, `op` and `resv`; no register, no validity
bit, no cell, no counter and no pc changes (R203, R204, R205). -/
def Obligations.IllegalWordInWritebackEndsTheRun : Prop :=
  ∀ s : State, s.CycleNext → s.L.wb.fresh .wb = true → s.content s.L.wb = .illegal →
    ∃ t, step s = .next t ∧ t.runState = .stopped ∧
      t.outcome = .fault (.illegalInstruction s.L.wb.pc s.L.wb.fields.op s.L.wb.fields.resv) ∧
      t.x = s.x ∧ t.valid = s.valid ∧ t.dmem = s.dmem ∧ t.pc = s.pc ∧ t.clock = s.clock ∧
      t.insCompleted = s.insCompleted

/-- A HALT in WB stops the run with HALTED and an END latch there stops it with DRAINED, at the end of the cycle, unless a
later unit of the cycle raises a fault, which then wins: DataOutOfRange of the load or store in MEM2, or FetchOutOfRange of
Fetch (R106, R107, R129, R206). -/
def Obligations.HaltAndEndStopTheRun : Prop :=
  ∀ s t : State, s.CycleNext → s.L.wb.fresh .wb = true → step s = .next t →
    (s.content s.L.wb = .instr .halt → t.runState = .stopped ∧ (t.outcome = .halted ∨ LaterUnitFaults s t)) ∧
    (s.content s.L.wb = .endOfCode → t.runState = .stopped ∧ (t.outcome = .drained ∨ LaterUnitFaults s t))

/-- The pc changes in a step in three ways only, all of them in a clock cycle (R24): Fetch adds 4 when it hands a latch to
DRF, which then holds the latch fetched at the old pc; reconciliation sets it to the target of the JUMP or of the BZ or BNZ
in EX2 that is taken on the CC that EX2 reads; or reconciliation sets it to `END_ADDR` on the halt that an uncontended HALT
in DRF or EX2 raises. -/
def Obligations.PcChangesInThreeWays : Prop :=
  ∀ s t : State, step s = .next t → t.pc ≠ s.pc →
    s.CycleNext ∧
      ((t.pc = s.pc + 4 ∧ FetchHandsOff s ∧ t.L.drf.pc = s.pc ∧ t.L.drf.done = some .f) ∨
        TransfersTo s t.pc ∨
        (t.pc = BitVec.ofNat 32 s.endAddr ∧ HaltRaised s))
end

