-- ==== Sys2Proof/Laws/Decode.lean ====
section
/-!
SUPPORT. Laws/Decode.lean: splitting a word undoes joining its fields (spec 30_encoding.md R70, R71).
-/

namespace Sys2Proof

/-- The low part of an append. -/
theorem extract_append_low {n m : Nat} (a : BitVec n) (b : BitVec m) (k w : Nat) (h : k + w ≤ m) :
    (a ++ b).extractLsb' k w = b.extractLsb' k w := by
  apply BitVec.eq_of_getLsbD_eq
  intro i hi
  have h1 : k + i < m := by omega
  simp [BitVec.getLsbD_append, hi, h1]

/-- The high part of an append. -/
theorem extract_append_high {n m : Nat} (a : BitVec n) (b : BitVec m) :
    (a ++ b).extractLsb' m n = a := by
  apply BitVec.eq_of_getLsbD_eq
  intro i hi
  simp [BitVec.getLsbD_append, hi]

theorem extract_whole {n : Nat} (a : BitVec n) : a.extractLsb' 0 n = a := by
  apply BitVec.eq_of_getLsbD_eq
  intro i hi
  simp [hi]

/-- Fetch's split of a word reads back every field it was joined from. -/
@[simp] theorem splitWord_joinFields (f : Fields) : splitWord (joinFields f) = f := by
  obtain ⟨op, rd, rs1, rs2, rs3, resv, imm⟩ := f
  simp only [splitWord, joinFields, Fields.mk.injEq]
  refine ⟨extract_append_high _ _, ?_, ?_, ?_, ?_, ?_, ?_⟩
  · rw [extract_append_low _ _ _ _ (by decide)]; exact extract_append_high _ _
  · rw [extract_append_low _ _ _ _ (by decide), extract_append_low _ _ _ _ (by decide)]; exact extract_append_high _ _
  · rw [extract_append_low _ _ _ _ (by decide), extract_append_low _ _ _ _ (by decide),
      extract_append_low _ _ _ _ (by decide)]; exact extract_append_high _ _
  · rw [extract_append_low _ _ _ _ (by decide), extract_append_low _ _ _ _ (by decide),
      extract_append_low _ _ _ _ (by decide), extract_append_low _ _ _ _ (by decide)]; exact extract_append_high _ _
  · rw [extract_append_low _ _ _ _ (by decide), extract_append_low _ _ _ _ (by decide),
      extract_append_low _ _ _ _ (by decide), extract_append_low _ _ _ _ (by decide),
      extract_append_low _ _ _ _ (by decide)]; exact extract_append_high _ _
  · rw [extract_append_low _ _ _ _ (by decide), extract_append_low _ _ _ _ (by decide),
      extract_append_low _ _ _ _ (by decide), extract_append_low _ _ _ _ (by decide),
      extract_append_low _ _ _ _ (by decide), extract_append_low _ _ _ _ (by decide)]; exact extract_whole _

/-- A reserved bit rejects the word, whatever its opcode (R76). -/
theorem decodeFields_resv (f : Fields) (h : f.resv ≠ 0) : decodeFields f = .error (.reservedBits f.resv) := by
  exact if_pos h

end Sys2Proof
end

