-- ==== Sys2Proof/Laws/State.lean ====
section
/-!
SUPPORT. Laws/State.lean: for each update of the state, one lemma for each field, so that no proof unfolds a record
update.
-/

namespace Sys2Proof.Machine

/-! ### State.writeX -/

@[simp] theorem State.writeX_launch (s : State) (i : Slot) (v : Word) : (s.writeX i v).launch = s.launch := rfl
@[simp] theorem State.writeX_imem (s : State) (i : Slot) (v : Word) : (s.writeX i v).imem = s.imem := rfl
@[simp] theorem State.writeX_x (s : State) (i : Slot) (v : Word) : (s.writeX i v).x = s.x.set i.val v := rfl
@[simp] theorem State.writeX_valid (s : State) (i : Slot) (v : Word) : (s.writeX i v).valid = s.valid := rfl
@[simp] theorem State.writeX_pc (s : State) (i : Slot) (v : Word) : (s.writeX i v).pc = s.pc := rfl
@[simp] theorem State.writeX_dmem (s : State) (i : Slot) (v : Word) : (s.writeX i v).dmem = s.dmem := rfl
@[simp] theorem State.writeX_L (s : State) (i : Slot) (v : Word) : (s.writeX i v).L = s.L := rfl
@[simp] theorem State.writeX_flushPending (s : State) (i : Slot) (v : Word) : (s.writeX i v).flushPending = s.flushPending := rfl
@[simp] theorem State.writeX_flushTarget (s : State) (i : Slot) (v : Word) : (s.writeX i v).flushTarget = s.flushTarget := rfl
@[simp] theorem State.writeX_haltSev (s : State) (i : Slot) (v : Word) : (s.writeX i v).haltSev = s.haltSev := rfl
@[simp] theorem State.writeX_e1Done (s : State) (i : Slot) (v : Word) : (s.writeX i v).e1Done = s.e1Done := rfl
@[simp] theorem State.writeX_stopReq (s : State) (i : Slot) (v : Word) : (s.writeX i v).stopReq = s.stopReq := rfl
@[simp] theorem State.writeX_clock (s : State) (i : Slot) (v : Word) : (s.writeX i v).clock = s.clock := rfl
@[simp] theorem State.writeX_insCompleted (s : State) (i : Slot) (v : Word) : (s.writeX i v).insCompleted = s.insCompleted := rfl
@[simp] theorem State.writeX_runState (s : State) (i : Slot) (v : Word) : (s.writeX i v).runState = s.runState := rfl
@[simp] theorem State.writeX_outcome (s : State) (i : Slot) (v : Word) : (s.writeX i v).outcome = s.outcome := rfl
@[simp] theorem State.writeX_S0 (s : State) (i : Slot) (v : Word) : (s.writeX i v).S0 = s.S0 := rfl
@[simp] theorem State.writeX_unit (s : State) (i : Slot) (v : Word) : (s.writeX i v).unit = s.unit := rfl

/-! ### State.writeV -/

@[simp] theorem State.writeV_launch (s : State) (i : Slot) (b : Bool) : (s.writeV i b).launch = s.launch := rfl
@[simp] theorem State.writeV_imem (s : State) (i : Slot) (b : Bool) : (s.writeV i b).imem = s.imem := rfl
@[simp] theorem State.writeV_x (s : State) (i : Slot) (b : Bool) : (s.writeV i b).x = s.x := rfl
@[simp] theorem State.writeV_valid (s : State) (i : Slot) (b : Bool) : (s.writeV i b).valid = s.valid.set i.val b := rfl
@[simp] theorem State.writeV_pc (s : State) (i : Slot) (b : Bool) : (s.writeV i b).pc = s.pc := rfl
@[simp] theorem State.writeV_dmem (s : State) (i : Slot) (b : Bool) : (s.writeV i b).dmem = s.dmem := rfl
@[simp] theorem State.writeV_L (s : State) (i : Slot) (b : Bool) : (s.writeV i b).L = s.L := rfl
@[simp] theorem State.writeV_flushPending (s : State) (i : Slot) (b : Bool) : (s.writeV i b).flushPending = s.flushPending := rfl
@[simp] theorem State.writeV_flushTarget (s : State) (i : Slot) (b : Bool) : (s.writeV i b).flushTarget = s.flushTarget := rfl
@[simp] theorem State.writeV_haltSev (s : State) (i : Slot) (b : Bool) : (s.writeV i b).haltSev = s.haltSev := rfl
@[simp] theorem State.writeV_e1Done (s : State) (i : Slot) (b : Bool) : (s.writeV i b).e1Done = s.e1Done := rfl
@[simp] theorem State.writeV_stopReq (s : State) (i : Slot) (b : Bool) : (s.writeV i b).stopReq = s.stopReq := rfl
@[simp] theorem State.writeV_clock (s : State) (i : Slot) (b : Bool) : (s.writeV i b).clock = s.clock := rfl
@[simp] theorem State.writeV_insCompleted (s : State) (i : Slot) (b : Bool) : (s.writeV i b).insCompleted = s.insCompleted := rfl
@[simp] theorem State.writeV_runState (s : State) (i : Slot) (b : Bool) : (s.writeV i b).runState = s.runState := rfl
@[simp] theorem State.writeV_outcome (s : State) (i : Slot) (b : Bool) : (s.writeV i b).outcome = s.outcome := rfl
@[simp] theorem State.writeV_S0 (s : State) (i : Slot) (b : Bool) : (s.writeV i b).S0 = s.S0 := rfl
@[simp] theorem State.writeV_unit (s : State) (i : Slot) (b : Bool) : (s.writeV i b).unit = s.unit := rfl

/-! ### State.setCell -/

@[simp] theorem State.setCell_launch (s : State) (a v : Word) : (s.setCell a v).launch = s.launch := rfl
@[simp] theorem State.setCell_imem (s : State) (a v : Word) : (s.setCell a v).imem = s.imem := rfl
@[simp] theorem State.setCell_x (s : State) (a v : Word) : (s.setCell a v).x = s.x := rfl
@[simp] theorem State.setCell_valid (s : State) (a v : Word) : (s.setCell a v).valid = s.valid := rfl
@[simp] theorem State.setCell_pc (s : State) (a v : Word) : (s.setCell a v).pc = s.pc := rfl
@[simp] theorem State.setCell_dmem (s : State) (a v : Word) : (s.setCell a v).dmem = DMem.write s.dmem a.toNat v := rfl
@[simp] theorem State.setCell_L (s : State) (a v : Word) : (s.setCell a v).L = s.L := rfl
@[simp] theorem State.setCell_flushPending (s : State) (a v : Word) : (s.setCell a v).flushPending = s.flushPending := rfl
@[simp] theorem State.setCell_flushTarget (s : State) (a v : Word) : (s.setCell a v).flushTarget = s.flushTarget := rfl
@[simp] theorem State.setCell_haltSev (s : State) (a v : Word) : (s.setCell a v).haltSev = s.haltSev := rfl
@[simp] theorem State.setCell_e1Done (s : State) (a v : Word) : (s.setCell a v).e1Done = s.e1Done := rfl
@[simp] theorem State.setCell_stopReq (s : State) (a v : Word) : (s.setCell a v).stopReq = s.stopReq := rfl
@[simp] theorem State.setCell_clock (s : State) (a v : Word) : (s.setCell a v).clock = s.clock := rfl
@[simp] theorem State.setCell_insCompleted (s : State) (a v : Word) : (s.setCell a v).insCompleted = s.insCompleted := rfl
@[simp] theorem State.setCell_runState (s : State) (a v : Word) : (s.setCell a v).runState = s.runState := rfl
@[simp] theorem State.setCell_outcome (s : State) (a v : Word) : (s.setCell a v).outcome = s.outcome := rfl
@[simp] theorem State.setCell_S0 (s : State) (a v : Word) : (s.setCell a v).S0 = s.S0 := rfl
@[simp] theorem State.setCell_unit (s : State) (a v : Word) : (s.setCell a v).unit = s.unit := rfl

/-! ### State.setLatch -/

@[simp] theorem State.setLatch_launch (s : State) (u : Stage) (l : Latch) : (s.setLatch u l).launch = s.launch := rfl
@[simp] theorem State.setLatch_imem (s : State) (u : Stage) (l : Latch) : (s.setLatch u l).imem = s.imem := rfl
@[simp] theorem State.setLatch_x (s : State) (u : Stage) (l : Latch) : (s.setLatch u l).x = s.x := rfl
@[simp] theorem State.setLatch_valid (s : State) (u : Stage) (l : Latch) : (s.setLatch u l).valid = s.valid := rfl
@[simp] theorem State.setLatch_pc (s : State) (u : Stage) (l : Latch) : (s.setLatch u l).pc = s.pc := rfl
@[simp] theorem State.setLatch_dmem (s : State) (u : Stage) (l : Latch) : (s.setLatch u l).dmem = s.dmem := rfl
@[simp] theorem State.setLatch_L (s : State) (u : Stage) (l : Latch) : (s.setLatch u l).L = s.L.set u l := rfl
@[simp] theorem State.setLatch_flushPending (s : State) (u : Stage) (l : Latch) : (s.setLatch u l).flushPending = s.flushPending := rfl
@[simp] theorem State.setLatch_flushTarget (s : State) (u : Stage) (l : Latch) : (s.setLatch u l).flushTarget = s.flushTarget := rfl
@[simp] theorem State.setLatch_haltSev (s : State) (u : Stage) (l : Latch) : (s.setLatch u l).haltSev = s.haltSev := rfl
@[simp] theorem State.setLatch_e1Done (s : State) (u : Stage) (l : Latch) : (s.setLatch u l).e1Done = s.e1Done := rfl
@[simp] theorem State.setLatch_stopReq (s : State) (u : Stage) (l : Latch) : (s.setLatch u l).stopReq = s.stopReq := rfl
@[simp] theorem State.setLatch_clock (s : State) (u : Stage) (l : Latch) : (s.setLatch u l).clock = s.clock := rfl
@[simp] theorem State.setLatch_insCompleted (s : State) (u : Stage) (l : Latch) : (s.setLatch u l).insCompleted = s.insCompleted := rfl
@[simp] theorem State.setLatch_runState (s : State) (u : Stage) (l : Latch) : (s.setLatch u l).runState = s.runState := rfl
@[simp] theorem State.setLatch_outcome (s : State) (u : Stage) (l : Latch) : (s.setLatch u l).outcome = s.outcome := rfl
@[simp] theorem State.setLatch_S0 (s : State) (u : Stage) (l : Latch) : (s.setLatch u l).S0 = s.S0 := rfl
@[simp] theorem State.setLatch_unit (s : State) (u : Stage) (l : Latch) : (s.setLatch u l).unit = s.unit := rfl

/-! ### State.raise -/

@[simp] theorem State.raise_launch (s : State) (r : Fault) : (s.raise r).launch = s.launch := rfl
@[simp] theorem State.raise_imem (s : State) (r : Fault) : (s.raise r).imem = s.imem := rfl
@[simp] theorem State.raise_x (s : State) (r : Fault) : (s.raise r).x = s.x := rfl
@[simp] theorem State.raise_valid (s : State) (r : Fault) : (s.raise r).valid = s.valid := rfl
@[simp] theorem State.raise_pc (s : State) (r : Fault) : (s.raise r).pc = s.pc := rfl
@[simp] theorem State.raise_dmem (s : State) (r : Fault) : (s.raise r).dmem = s.dmem := rfl
@[simp] theorem State.raise_L (s : State) (r : Fault) : (s.raise r).L = s.L := rfl
@[simp] theorem State.raise_flushPending (s : State) (r : Fault) : (s.raise r).flushPending = s.flushPending := rfl
@[simp] theorem State.raise_flushTarget (s : State) (r : Fault) : (s.raise r).flushTarget = s.flushTarget := rfl
@[simp] theorem State.raise_haltSev (s : State) (r : Fault) : (s.raise r).haltSev = s.haltSev := rfl
@[simp] theorem State.raise_e1Done (s : State) (r : Fault) : (s.raise r).e1Done = s.e1Done := rfl
@[simp] theorem State.raise_stopReq (s : State) (r : Fault) : (s.raise r).stopReq = s.stopReq := rfl
@[simp] theorem State.raise_clock (s : State) (r : Fault) : (s.raise r).clock = s.clock := rfl
@[simp] theorem State.raise_insCompleted (s : State) (r : Fault) : (s.raise r).insCompleted = s.insCompleted := rfl
@[simp] theorem State.raise_runState (s : State) (r : Fault) : (s.raise r).runState = .stopped := rfl
@[simp] theorem State.raise_outcome (s : State) (r : Fault) : (s.raise r).outcome = .fault r := rfl
@[simp] theorem State.raise_S0 (s : State) (r : Fault) : (s.raise r).S0 = s.S0 := rfl
@[simp] theorem State.raise_unit (s : State) (r : Fault) : (s.raise r).unit = s.unit := rfl

/-! ### State.raiseHalt -/

@[simp] theorem State.raiseHalt_launch (s : State) (v : HaltSev) : (s.raiseHalt v).launch = s.launch := rfl
@[simp] theorem State.raiseHalt_imem (s : State) (v : HaltSev) : (s.raiseHalt v).imem = s.imem := rfl
@[simp] theorem State.raiseHalt_x (s : State) (v : HaltSev) : (s.raiseHalt v).x = s.x := rfl
@[simp] theorem State.raiseHalt_valid (s : State) (v : HaltSev) : (s.raiseHalt v).valid = s.valid := rfl
@[simp] theorem State.raiseHalt_pc (s : State) (v : HaltSev) : (s.raiseHalt v).pc = s.pc := rfl
@[simp] theorem State.raiseHalt_dmem (s : State) (v : HaltSev) : (s.raiseHalt v).dmem = s.dmem := rfl
@[simp] theorem State.raiseHalt_L (s : State) (v : HaltSev) : (s.raiseHalt v).L = s.L := rfl
@[simp] theorem State.raiseHalt_flushPending (s : State) (v : HaltSev) : (s.raiseHalt v).flushPending = s.flushPending := rfl
@[simp] theorem State.raiseHalt_flushTarget (s : State) (v : HaltSev) : (s.raiseHalt v).flushTarget = s.flushTarget := rfl
@[simp] theorem State.raiseHalt_haltSev (s : State) (v : HaltSev) : (s.raiseHalt v).haltSev = s.haltSev.max v := rfl
@[simp] theorem State.raiseHalt_e1Done (s : State) (v : HaltSev) : (s.raiseHalt v).e1Done = s.e1Done := rfl
@[simp] theorem State.raiseHalt_stopReq (s : State) (v : HaltSev) : (s.raiseHalt v).stopReq = s.stopReq := rfl
@[simp] theorem State.raiseHalt_clock (s : State) (v : HaltSev) : (s.raiseHalt v).clock = s.clock := rfl
@[simp] theorem State.raiseHalt_insCompleted (s : State) (v : HaltSev) : (s.raiseHalt v).insCompleted = s.insCompleted := rfl
@[simp] theorem State.raiseHalt_runState (s : State) (v : HaltSev) : (s.raiseHalt v).runState = s.runState := rfl
@[simp] theorem State.raiseHalt_outcome (s : State) (v : HaltSev) : (s.raiseHalt v).outcome = s.outcome := rfl
@[simp] theorem State.raiseHalt_S0 (s : State) (v : HaltSev) : (s.raiseHalt v).S0 = s.S0 := rfl
@[simp] theorem State.raiseHalt_unit (s : State) (v : HaltSev) : (s.raiseHalt v).unit = s.unit := rfl

/-! ### State.requestFlush -/

@[simp] theorem State.requestFlush_launch (s : State) (t : Word) : (s.requestFlush t).launch = s.launch := rfl
@[simp] theorem State.requestFlush_imem (s : State) (t : Word) : (s.requestFlush t).imem = s.imem := rfl
@[simp] theorem State.requestFlush_x (s : State) (t : Word) : (s.requestFlush t).x = s.x := rfl
@[simp] theorem State.requestFlush_valid (s : State) (t : Word) : (s.requestFlush t).valid = s.valid := rfl
@[simp] theorem State.requestFlush_pc (s : State) (t : Word) : (s.requestFlush t).pc = s.pc := rfl
@[simp] theorem State.requestFlush_dmem (s : State) (t : Word) : (s.requestFlush t).dmem = s.dmem := rfl
@[simp] theorem State.requestFlush_L (s : State) (t : Word) : (s.requestFlush t).L = s.L := rfl
@[simp] theorem State.requestFlush_flushPending (s : State) (t : Word) : (s.requestFlush t).flushPending = true := rfl
@[simp] theorem State.requestFlush_flushTarget (s : State) (t : Word) : (s.requestFlush t).flushTarget = t := rfl
@[simp] theorem State.requestFlush_haltSev (s : State) (t : Word) : (s.requestFlush t).haltSev = s.haltSev := rfl
@[simp] theorem State.requestFlush_e1Done (s : State) (t : Word) : (s.requestFlush t).e1Done = s.e1Done := rfl
@[simp] theorem State.requestFlush_stopReq (s : State) (t : Word) : (s.requestFlush t).stopReq = s.stopReq := rfl
@[simp] theorem State.requestFlush_clock (s : State) (t : Word) : (s.requestFlush t).clock = s.clock := rfl
@[simp] theorem State.requestFlush_insCompleted (s : State) (t : Word) : (s.requestFlush t).insCompleted = s.insCompleted := rfl
@[simp] theorem State.requestFlush_runState (s : State) (t : Word) : (s.requestFlush t).runState = s.runState := rfl
@[simp] theorem State.requestFlush_outcome (s : State) (t : Word) : (s.requestFlush t).outcome = s.outcome := rfl
@[simp] theorem State.requestFlush_S0 (s : State) (t : Word) : (s.requestFlush t).S0 = s.S0 := rfl
@[simp] theorem State.requestFlush_unit (s : State) (t : Word) : (s.requestFlush t).unit = s.unit := rfl

/-! ### State.placeAtPc -/

@[simp] theorem State.placeAtPc_launch (s : State) (w : InsnWord) : (s.placeAtPc w).launch = s.launch := rfl
@[simp] theorem State.placeAtPc_imem (s : State) (w : InsnWord) : (s.placeAtPc w).imem = placeWord s.imem ((s.pc.toNat - s.launch.codeBase) / insnStride) w := rfl
@[simp] theorem State.placeAtPc_x (s : State) (w : InsnWord) : (s.placeAtPc w).x = s.x := rfl
@[simp] theorem State.placeAtPc_valid (s : State) (w : InsnWord) : (s.placeAtPc w).valid = s.valid := rfl
@[simp] theorem State.placeAtPc_pc (s : State) (w : InsnWord) : (s.placeAtPc w).pc = s.pc := rfl
@[simp] theorem State.placeAtPc_dmem (s : State) (w : InsnWord) : (s.placeAtPc w).dmem = s.dmem := rfl
@[simp] theorem State.placeAtPc_L (s : State) (w : InsnWord) : (s.placeAtPc w).L = s.L := rfl
@[simp] theorem State.placeAtPc_flushPending (s : State) (w : InsnWord) : (s.placeAtPc w).flushPending = s.flushPending := rfl
@[simp] theorem State.placeAtPc_flushTarget (s : State) (w : InsnWord) : (s.placeAtPc w).flushTarget = s.flushTarget := rfl
@[simp] theorem State.placeAtPc_haltSev (s : State) (w : InsnWord) : (s.placeAtPc w).haltSev = s.haltSev := rfl
@[simp] theorem State.placeAtPc_e1Done (s : State) (w : InsnWord) : (s.placeAtPc w).e1Done = s.e1Done := rfl
@[simp] theorem State.placeAtPc_stopReq (s : State) (w : InsnWord) : (s.placeAtPc w).stopReq = s.stopReq := rfl
@[simp] theorem State.placeAtPc_clock (s : State) (w : InsnWord) : (s.placeAtPc w).clock = s.clock := rfl
@[simp] theorem State.placeAtPc_insCompleted (s : State) (w : InsnWord) : (s.placeAtPc w).insCompleted = s.insCompleted := rfl
@[simp] theorem State.placeAtPc_runState (s : State) (w : InsnWord) : (s.placeAtPc w).runState = s.runState := rfl
@[simp] theorem State.placeAtPc_outcome (s : State) (w : InsnWord) : (s.placeAtPc w).outcome = s.outcome := rfl
@[simp] theorem State.placeAtPc_S0 (s : State) (w : InsnWord) : (s.placeAtPc w).S0 = s.S0 := rfl
@[simp] theorem State.placeAtPc_unit (s : State) (w : InsnWord) : (s.placeAtPc w).unit = s.unit := rfl

/-! ### State.beginCycle -/

@[simp] theorem State.beginCycle_launch (s : State) : (s.beginCycle).launch = s.launch := rfl
@[simp] theorem State.beginCycle_imem (s : State) : (s.beginCycle).imem = s.imem := rfl
@[simp] theorem State.beginCycle_x (s : State) : (s.beginCycle).x = s.x := rfl
@[simp] theorem State.beginCycle_valid (s : State) : (s.beginCycle).valid = s.valid := rfl
@[simp] theorem State.beginCycle_pc (s : State) : (s.beginCycle).pc = s.pc := rfl
@[simp] theorem State.beginCycle_dmem (s : State) : (s.beginCycle).dmem = s.dmem := rfl
@[simp] theorem State.beginCycle_L (s : State) : (s.beginCycle).L = s.L := rfl
@[simp] theorem State.beginCycle_flushPending (s : State) : (s.beginCycle).flushPending = false := rfl
@[simp] theorem State.beginCycle_flushTarget (s : State) : (s.beginCycle).flushTarget = 0 := rfl
@[simp] theorem State.beginCycle_haltSev (s : State) : (s.beginCycle).haltSev = .none := rfl
@[simp] theorem State.beginCycle_e1Done (s : State) : (s.beginCycle).e1Done = none := rfl
@[simp] theorem State.beginCycle_stopReq (s : State) : (s.beginCycle).stopReq = .none := rfl
@[simp] theorem State.beginCycle_clock (s : State) : (s.beginCycle).clock = s.clock := rfl
@[simp] theorem State.beginCycle_insCompleted (s : State) : (s.beginCycle).insCompleted = s.insCompleted := rfl
@[simp] theorem State.beginCycle_runState (s : State) : (s.beginCycle).runState = s.runState := rfl
@[simp] theorem State.beginCycle_outcome (s : State) : (s.beginCycle).outcome = s.outcome := rfl
@[simp] theorem State.beginCycle_S0 (s : State) : (s.beginCycle).S0 = s.L := rfl
@[simp] theorem State.beginCycle_unit (s : State) : (s.beginCycle).unit = s.unit := rfl

/-! ### State.clearFront -/

@[simp] theorem State.clearFront_launch (s : State) : (s.clearFront).launch = s.launch := rfl
@[simp] theorem State.clearFront_imem (s : State) : (s.clearFront).imem = s.imem := rfl
@[simp] theorem State.clearFront_x (s : State) : (s.clearFront).x = s.x := rfl
@[simp] theorem State.clearFront_valid (s : State) : (s.clearFront).valid = s.valid := rfl
@[simp] theorem State.clearFront_pc (s : State) : (s.clearFront).pc = s.pc := rfl
@[simp] theorem State.clearFront_dmem (s : State) : (s.clearFront).dmem = s.dmem := rfl
@[simp] theorem State.clearFront_L (s : State) : (s.clearFront).L = { s.L with f := s.L.f.flush, drf := s.L.drf.flush } := rfl
@[simp] theorem State.clearFront_flushPending (s : State) : (s.clearFront).flushPending = s.flushPending := rfl
@[simp] theorem State.clearFront_flushTarget (s : State) : (s.clearFront).flushTarget = s.flushTarget := rfl
@[simp] theorem State.clearFront_haltSev (s : State) : (s.clearFront).haltSev = s.haltSev := rfl
@[simp] theorem State.clearFront_e1Done (s : State) : (s.clearFront).e1Done = s.e1Done := rfl
@[simp] theorem State.clearFront_stopReq (s : State) : (s.clearFront).stopReq = s.stopReq := rfl
@[simp] theorem State.clearFront_clock (s : State) : (s.clearFront).clock = s.clock := rfl
@[simp] theorem State.clearFront_insCompleted (s : State) : (s.clearFront).insCompleted = s.insCompleted := rfl
@[simp] theorem State.clearFront_runState (s : State) : (s.clearFront).runState = s.runState := rfl
@[simp] theorem State.clearFront_outcome (s : State) : (s.clearFront).outcome = s.outcome := rfl
@[simp] theorem State.clearFront_S0 (s : State) : (s.clearFront).S0 = s.S0 := rfl
@[simp] theorem State.clearFront_unit (s : State) : (s.clearFront).unit = s.unit := rfl

/-! ### State.clearExecute -/

@[simp] theorem State.clearExecute_launch (s : State) : (s.clearExecute).launch = s.launch := rfl
@[simp] theorem State.clearExecute_imem (s : State) : (s.clearExecute).imem = s.imem := rfl
@[simp] theorem State.clearExecute_x (s : State) : (s.clearExecute).x = s.x := rfl
@[simp] theorem State.clearExecute_valid (s : State) : (s.clearExecute).valid = s.valid := rfl
@[simp] theorem State.clearExecute_pc (s : State) : (s.clearExecute).pc = s.pc := rfl
@[simp] theorem State.clearExecute_dmem (s : State) : (s.clearExecute).dmem = s.dmem := rfl
@[simp] theorem State.clearExecute_L (s : State) : (s.clearExecute).L = { s.L with ex1 := s.L.ex1.flush, ex2 := s.L.ex2.flush } := rfl
@[simp] theorem State.clearExecute_flushPending (s : State) : (s.clearExecute).flushPending = s.flushPending := rfl
@[simp] theorem State.clearExecute_flushTarget (s : State) : (s.clearExecute).flushTarget = s.flushTarget := rfl
@[simp] theorem State.clearExecute_haltSev (s : State) : (s.clearExecute).haltSev = s.haltSev := rfl
@[simp] theorem State.clearExecute_e1Done (s : State) : (s.clearExecute).e1Done = s.e1Done := rfl
@[simp] theorem State.clearExecute_stopReq (s : State) : (s.clearExecute).stopReq = s.stopReq := rfl
@[simp] theorem State.clearExecute_clock (s : State) : (s.clearExecute).clock = s.clock := rfl
@[simp] theorem State.clearExecute_insCompleted (s : State) : (s.clearExecute).insCompleted = s.insCompleted := rfl
@[simp] theorem State.clearExecute_runState (s : State) : (s.clearExecute).runState = s.runState := rfl
@[simp] theorem State.clearExecute_outcome (s : State) : (s.clearExecute).outcome = s.outcome := rfl
@[simp] theorem State.clearExecute_S0 (s : State) : (s.clearExecute).S0 = s.S0 := rfl
@[simp] theorem State.clearExecute_unit (s : State) : (s.clearExecute).unit = s.unit := rfl

/-! ### State.advance: latches only -/

@[simp] theorem State.advance_launch (s : State) (u : Stage) (l : Latch) : (s.advance u l).launch = s.launch := by cases u <;> rfl
@[simp] theorem State.advance_imem (s : State) (u : Stage) (l : Latch) : (s.advance u l).imem = s.imem := by cases u <;> rfl
@[simp] theorem State.advance_x (s : State) (u : Stage) (l : Latch) : (s.advance u l).x = s.x := by cases u <;> rfl
@[simp] theorem State.advance_valid (s : State) (u : Stage) (l : Latch) : (s.advance u l).valid = s.valid := by cases u <;> rfl
@[simp] theorem State.advance_pc (s : State) (u : Stage) (l : Latch) : (s.advance u l).pc = s.pc := by cases u <;> rfl
@[simp] theorem State.advance_dmem (s : State) (u : Stage) (l : Latch) : (s.advance u l).dmem = s.dmem := by cases u <;> rfl
@[simp] theorem State.advance_flushPending (s : State) (u : Stage) (l : Latch) : (s.advance u l).flushPending = s.flushPending := by cases u <;> rfl
@[simp] theorem State.advance_flushTarget (s : State) (u : Stage) (l : Latch) : (s.advance u l).flushTarget = s.flushTarget := by cases u <;> rfl
@[simp] theorem State.advance_haltSev (s : State) (u : Stage) (l : Latch) : (s.advance u l).haltSev = s.haltSev := by cases u <;> rfl
@[simp] theorem State.advance_e1Done (s : State) (u : Stage) (l : Latch) : (s.advance u l).e1Done = s.e1Done := by cases u <;> rfl
@[simp] theorem State.advance_stopReq (s : State) (u : Stage) (l : Latch) : (s.advance u l).stopReq = s.stopReq := by cases u <;> rfl
@[simp] theorem State.advance_clock (s : State) (u : Stage) (l : Latch) : (s.advance u l).clock = s.clock := by cases u <;> rfl
@[simp] theorem State.advance_insCompleted (s : State) (u : Stage) (l : Latch) : (s.advance u l).insCompleted = s.insCompleted := by cases u <;> rfl
@[simp] theorem State.advance_runState (s : State) (u : Stage) (l : Latch) : (s.advance u l).runState = s.runState := by cases u <;> rfl
@[simp] theorem State.advance_outcome (s : State) (u : Stage) (l : Latch) : (s.advance u l).outcome = s.outcome := by cases u <;> rfl
@[simp] theorem State.advance_S0 (s : State) (u : Stage) (l : Latch) : (s.advance u l).S0 = s.S0 := by cases u <;> rfl
@[simp] theorem State.advance_unit (s : State) (u : Stage) (l : Latch) : (s.advance u l).unit = s.unit := by cases u <;> rfl

/-! ### State.advanceAndEmpty: latches only -/

@[simp] theorem State.advanceAndEmpty_launch (s : State) (u : Stage) (l : Latch) : (s.advanceAndEmpty u l).launch = s.launch := by cases u <;> rfl
@[simp] theorem State.advanceAndEmpty_imem (s : State) (u : Stage) (l : Latch) : (s.advanceAndEmpty u l).imem = s.imem := by cases u <;> rfl
@[simp] theorem State.advanceAndEmpty_x (s : State) (u : Stage) (l : Latch) : (s.advanceAndEmpty u l).x = s.x := by cases u <;> rfl
@[simp] theorem State.advanceAndEmpty_valid (s : State) (u : Stage) (l : Latch) : (s.advanceAndEmpty u l).valid = s.valid := by cases u <;> rfl
@[simp] theorem State.advanceAndEmpty_pc (s : State) (u : Stage) (l : Latch) : (s.advanceAndEmpty u l).pc = s.pc := by cases u <;> rfl
@[simp] theorem State.advanceAndEmpty_dmem (s : State) (u : Stage) (l : Latch) : (s.advanceAndEmpty u l).dmem = s.dmem := by cases u <;> rfl
@[simp] theorem State.advanceAndEmpty_flushPending (s : State) (u : Stage) (l : Latch) : (s.advanceAndEmpty u l).flushPending = s.flushPending := by cases u <;> rfl
@[simp] theorem State.advanceAndEmpty_flushTarget (s : State) (u : Stage) (l : Latch) : (s.advanceAndEmpty u l).flushTarget = s.flushTarget := by cases u <;> rfl
@[simp] theorem State.advanceAndEmpty_haltSev (s : State) (u : Stage) (l : Latch) : (s.advanceAndEmpty u l).haltSev = s.haltSev := by cases u <;> rfl
@[simp] theorem State.advanceAndEmpty_e1Done (s : State) (u : Stage) (l : Latch) : (s.advanceAndEmpty u l).e1Done = s.e1Done := by cases u <;> rfl
@[simp] theorem State.advanceAndEmpty_stopReq (s : State) (u : Stage) (l : Latch) : (s.advanceAndEmpty u l).stopReq = s.stopReq := by cases u <;> rfl
@[simp] theorem State.advanceAndEmpty_clock (s : State) (u : Stage) (l : Latch) : (s.advanceAndEmpty u l).clock = s.clock := by cases u <;> rfl
@[simp] theorem State.advanceAndEmpty_insCompleted (s : State) (u : Stage) (l : Latch) : (s.advanceAndEmpty u l).insCompleted = s.insCompleted := by cases u <;> rfl
@[simp] theorem State.advanceAndEmpty_runState (s : State) (u : Stage) (l : Latch) : (s.advanceAndEmpty u l).runState = s.runState := by cases u <;> rfl
@[simp] theorem State.advanceAndEmpty_outcome (s : State) (u : Stage) (l : Latch) : (s.advanceAndEmpty u l).outcome = s.outcome := by cases u <;> rfl
@[simp] theorem State.advanceAndEmpty_S0 (s : State) (u : Stage) (l : Latch) : (s.advanceAndEmpty u l).S0 = s.S0 := by cases u <;> rfl
@[simp] theorem State.advanceAndEmpty_unit (s : State) (u : Stage) (l : Latch) : (s.advanceAndEmpty u l).unit = s.unit := by cases u <;> rfl

/-! ### State.setIsEmpty: latches only -/

@[simp] theorem State.setIsEmpty_launch (s : State) (u : Stage) (b : Bool) : (s.setIsEmpty u b).launch = s.launch := rfl
@[simp] theorem State.setIsEmpty_imem (s : State) (u : Stage) (b : Bool) : (s.setIsEmpty u b).imem = s.imem := rfl
@[simp] theorem State.setIsEmpty_x (s : State) (u : Stage) (b : Bool) : (s.setIsEmpty u b).x = s.x := rfl
@[simp] theorem State.setIsEmpty_valid (s : State) (u : Stage) (b : Bool) : (s.setIsEmpty u b).valid = s.valid := rfl
@[simp] theorem State.setIsEmpty_pc (s : State) (u : Stage) (b : Bool) : (s.setIsEmpty u b).pc = s.pc := rfl
@[simp] theorem State.setIsEmpty_dmem (s : State) (u : Stage) (b : Bool) : (s.setIsEmpty u b).dmem = s.dmem := rfl
@[simp] theorem State.setIsEmpty_flushPending (s : State) (u : Stage) (b : Bool) : (s.setIsEmpty u b).flushPending = s.flushPending := rfl
@[simp] theorem State.setIsEmpty_flushTarget (s : State) (u : Stage) (b : Bool) : (s.setIsEmpty u b).flushTarget = s.flushTarget := rfl
@[simp] theorem State.setIsEmpty_haltSev (s : State) (u : Stage) (b : Bool) : (s.setIsEmpty u b).haltSev = s.haltSev := rfl
@[simp] theorem State.setIsEmpty_e1Done (s : State) (u : Stage) (b : Bool) : (s.setIsEmpty u b).e1Done = s.e1Done := rfl
@[simp] theorem State.setIsEmpty_stopReq (s : State) (u : Stage) (b : Bool) : (s.setIsEmpty u b).stopReq = s.stopReq := rfl
@[simp] theorem State.setIsEmpty_clock (s : State) (u : Stage) (b : Bool) : (s.setIsEmpty u b).clock = s.clock := rfl
@[simp] theorem State.setIsEmpty_insCompleted (s : State) (u : Stage) (b : Bool) : (s.setIsEmpty u b).insCompleted = s.insCompleted := rfl
@[simp] theorem State.setIsEmpty_runState (s : State) (u : Stage) (b : Bool) : (s.setIsEmpty u b).runState = s.runState := rfl
@[simp] theorem State.setIsEmpty_outcome (s : State) (u : Stage) (b : Bool) : (s.setIsEmpty u b).outcome = s.outcome := rfl
@[simp] theorem State.setIsEmpty_S0 (s : State) (u : Stage) (b : Bool) : (s.setIsEmpty u b).S0 = s.S0 := rfl
@[simp] theorem State.setIsEmpty_unit (s : State) (u : Stage) (b : Bool) : (s.setIsEmpty u b).unit = s.unit := rfl

end Sys2Proof.Machine
end

