-- ==== Sys2Proof/Laws/Latches.lean ====
section
/-!
SUPPORT. Laws/Latches.lean: reading the latches after an update, and that the class of a latch depends on the launch data
alone.
-/

namespace Sys2Proof.Machine

theorem Latches.get_set (L : Latches) (u v : Stage) (l : Latch) :
    (L.set u l).get v = if u = v then l else L.get v := by
  cases u <;> cases v <;> rfl

@[simp] theorem Latches.get_set_same (L : Latches) (u : Stage) (l : Latch) : (L.set u l).get u = l := by
  simp [Latches.get_set]

theorem latch_setLatch (s : State) (u v : Stage) (l : Latch) :
    (s.setLatch u l).latch v = if u = v then l else s.latch v := Latches.get_set s.L u v l

@[simp] theorem latch_setLatch_same (s : State) (u : Stage) (l : Latch) : (s.setLatch u l).latch u = l := by
  simp [latch_setLatch]

theorem latch_setIsEmpty (s : State) (u v : Stage) (b : Bool) :
    (s.setIsEmpty u b).latch v = if u = v then { s.latch u with isEmpty := b } else s.latch v := by
  simp [State.setIsEmpty, latch_setLatch]

/-- Copy-forward: after a stage performs, its own latch carries its mark and the stage downstream holds the content,
keeping its own display flag; every other latch is as before (spec 40_pipeline.md R103). -/
theorem latch_advance (s : State) (u v : Stage) (l : Latch) :
    (s.advance u l).latch v =
      if u.downstream = some v then { l with done := some u, isEmpty := (s.latch v).isEmpty }
      else if u = v then { l with done := some u }
      else s.latch v := by
  cases u <;> cases v <;> rfl

/-- The same for MEM1 and MEM2, which then empty their own latch (R103). -/
theorem latch_advanceAndEmpty (s : State) (u v : Stage) (l : Latch) :
    (s.advanceAndEmpty u l).latch v =
      if u.downstream = some v then { l with done := some u, isEmpty := (s.latch v).isEmpty }
      else if u = v then { l with done := some u, pc := 0 }
      else s.latch v := by
  cases u <;> cases v <;> rfl

/-- A latch a stage hands on is fresh for the stage downstream (R103: "so `L[s+1]` is fresh in the next cycle"). -/
theorem fresh_of_handed_on (u d : Stage) (l : Latch) (b : Bool) (hd : u.downstream = some d) (hpc : l.pc ≠ 0) :
    ({ l with done := some u, isEmpty := b } : Latch).fresh d = true := by
  have hu : d.upstream = some u := by cases u <;> cases d <;> simp_all [Stage.downstream, Stage.upstream]
  simpa [Latch.fresh, hu] using hpc

/-- A stage's own mark is no freshness: a content is never processed twice (R30, R102). -/
theorem not_fresh_of_own_mark (u : Stage) (l : Latch) (h : l.done = some u) : l.fresh u = false := by
  cases u <;> simp [Latch.fresh, Stage.upstream, h]

/-- An empty latch is not fresh (R29, R30). -/
theorem not_fresh_of_empty (u : Stage) (l : Latch) (h : l.pc = 0) : l.fresh u = false := by
  cases u <;> simp [Latch.fresh, Stage.upstream, h]

@[simp] theorem not_fresh_flush (u : Stage) (l : Latch) : l.flush.fresh u = false := not_fresh_of_empty u _ rfl

/-- The end of the program depends on the launch data alone. -/
theorem endAddr_congr {s t : State} (h1 : t.launch = s.launch) (h2 : t.imem = s.imem) : t.endAddr = s.endAddr := by
  simp [State.endAddr, State.progLen, h1, h2]

/-- What a latch holds depends on the launch data and the latch alone. -/
theorem content_congr {s t : State} (h1 : t.launch = s.launch) (h2 : t.imem = s.imem) (l : Latch) :
    t.content l = s.content l := by
  simp [State.content, endAddr_congr h1 h2]

theorem cls_congr {s t : State} (h1 : t.launch = s.launch) (h2 : t.imem = s.imem) (l : Latch) : t.cls l = s.cls l := by
  simp [State.cls, content_congr h1 h2]

/-- What a latch holds is told by its `pc` and its fields (R74). -/
theorem content_eq_of_fields (s : State) (l m : Latch) (hp : l.pc = m.pc) (hf : l.fields = m.fields) :
    s.content l = s.content m := by
  simp [State.content, hp, hf]

end Sys2Proof.Machine
end

