-- ==== Sys2Proof/Laws/Memory.lean ====
section
/-!
SUPPORT. Laws/Memory.lean: the data memory keeps its canonical form, and reading after writing (spec 20_memory.md R54,
R64).
-/

namespace Sys2Proof.Machine

/-- `lo` is below `k`, or there is no bound. -/
def boundBelow (lo : Option Nat) (k : Nat) : Prop := ∀ j, lo = some j → j < k

theorem DMem.wfAbove_cons (lo : Option Nat) (b : Nat) (w : Word) (t : DMem) :
    DMem.wfAbove lo ((b, w) :: t) = true ↔
      boundBelow lo b ∧ w ≠ dmemDefault ∧ DMem.wfAbove (some b) t = true := by
  cases lo <;> simp [DMem.wfAbove, boundBelow, and_assoc]

/-- The lower bound of a canonical list may be lowered. -/
theorem DMem.wfAbove_mono (m : DMem) (lo : Option Nat) (k : Nat) (hk : boundBelow lo k)
    (h : DMem.wfAbove (some k) m = true) : DMem.wfAbove lo m = true := by
  cases m with
  | nil => rfl
  | cons c t =>
    rw [DMem.wfAbove_cons] at h ⊢
    exact ⟨fun j hj => lt_trans (hk j hj) (h.1 k rfl), h.2⟩

/-- A canonical list above `k` reads the default at and below `k`. -/
theorem DMem.read_below (m : DMem) : ∀ k a, DMem.wfAbove (some k) m = true → a ≤ k → DMem.read m a = dmemDefault := by
  induction m with
  | nil => intros; rfl
  | cons c t ih =>
    intro k a h ha
    rw [DMem.wfAbove_cons] at h
    have hb := h.1 k rfl
    have hne : c.1 ≠ a := by omega
    simp only [DMem.read, if_neg hne]
    exact ih c.1 a h.2.2 (by omega)

/-- A write above the bound keeps the canonical form above the bound. -/
theorem DMem.write_wfAbove (m : DMem) (a : Nat) (v : Word) :
    ∀ lo, boundBelow lo a → DMem.wfAbove lo m = true → DMem.wfAbove lo (DMem.write m a v) = true := by
  induction m with
  | nil =>
    intro lo hlo _
    by_cases hv : v = dmemDefault
    · simp [DMem.write, DMem.wfAbove, hv]
    · simp only [DMem.write, if_neg hv]
      exact (DMem.wfAbove_cons lo a v []).mpr ⟨hlo, hv, rfl⟩
  | cons c t ih =>
    intro lo hlo h
    obtain ⟨b, w⟩ := c
    have hc := h
    rw [DMem.wfAbove_cons] at h
    obtain ⟨hlb, hw, ht⟩ := h
    by_cases h1 : b < a
    · have hba : boundBelow (some b) a := fun j hj => by cases hj; exact h1
      simp [DMem.write, DMem.wfAbove_cons, h1, hlb, hw, ih _ hba ht]
    · by_cases h2 : b = a
      · subst h2
        by_cases hv : v = dmemDefault
        · simpa [DMem.write, hv] using DMem.wfAbove_mono t lo b hlb ht
        · simp [DMem.write, DMem.wfAbove_cons, hv, hlo, ht]
      · by_cases hv : v = dmemDefault
        · simpa [DMem.write, h1, h2, hv] using hc
        · have hab : boundBelow (some a) b := fun j hj => by cases hj; omega
          simp [DMem.write, DMem.wfAbove_cons, h1, h2, hv, hlo, hab, hw, ht]

/-- Every write keeps the canonical form. -/
theorem DMem.write_wf (m : DMem) (a : Nat) (v : Word) (h : m.wf = true) : (DMem.write m a v).wf = true :=
  DMem.write_wfAbove m a v none (fun _ hj => nomatch hj) h

/-- Reading after writing, above any bound. -/
theorem DMem.read_write_above (m : DMem) (a : Nat) (v : Word) (b : Nat) :
    ∀ lo, DMem.wfAbove lo m = true → DMem.read (DMem.write m a v) b = if a = b then v else DMem.read m b := by
  induction m with
  | nil =>
    intro lo _
    by_cases hv : v = dmemDefault <;> by_cases hab : a = b <;> simp [DMem.write, DMem.read, hv, hab]
  | cons c t ih =>
    intro lo h
    obtain ⟨d, w⟩ := c
    rw [DMem.wfAbove_cons] at h
    have ht := h.2.2
    by_cases h1 : d < a
    · simp only [DMem.write, if_pos h1, DMem.read, ih (some d) ht]
      by_cases hdb : d = b
      · have : a ≠ b := by omega
        simp [hdb, this]
      · simp [hdb]
    · by_cases h2 : d = a
      · subst h2
        by_cases hv : v = dmemDefault
        · by_cases hdb : d = b
          · subst hdb
            simpa [DMem.write, hv] using DMem.read_below t d d ht (le_refl d)
          · simp [DMem.write, DMem.read, hv, hdb]
        · by_cases hdb : d = b <;> simp [DMem.write, DMem.read, hv, hdb]
      · by_cases hab : a = b
        · subst hab
          by_cases hv : v = dmemDefault
          · have : DMem.read t a = dmemDefault := DMem.read_below t d a ht (by omega)
            simp [DMem.write, DMem.read, h1, h2, hv, this]
          · simp [DMem.write, DMem.read, h1, h2, hv]
        · by_cases hv : v = dmemDefault <;> simp [DMem.write, DMem.read, h1, h2, hv, hab]

/-- Reading after writing a canonical memory: the written cell reads as the value written, every other cell as before. -/
theorem DMem.read_write (m : DMem) (a b : Nat) (v : Word) (h : m.wf = true) :
    DMem.read (DMem.write m a v) b = if a = b then v else DMem.read m b :=
  DMem.read_write_above m a v b none h

/-- What a write lists: the written cell, or what was listed before. -/
theorem DMem.mem_write (m : DMem) (a b : Nat) (v w : Word) :
    (b, w) ∈ DMem.write m a v → b = a ∨ (b, w) ∈ m := by
  induction m with
  | nil =>
    by_cases hv : v = dmemDefault
    · simp [DMem.write, hv]
    · simp only [DMem.write, if_neg hv, List.mem_singleton, Prod.mk.injEq]
      exact fun h => .inl h.1
  | cons c t ih =>
    obtain ⟨d, x⟩ := c
    simp only [DMem.write]
    split
    · intro h
      rcases List.mem_cons.mp h with h | h
      · exact .inr (List.mem_cons.mpr (.inl h))
      · exact (ih h).imp id fun h => List.mem_cons.mpr (.inr h)
    · split
      · split
        · exact fun h => .inr (List.mem_cons.mpr (.inr h))
        · intro h
          rcases List.mem_cons.mp h with h | h
          · exact .inl (congrArg Prod.fst h)
          · exact .inr (List.mem_cons.mpr (.inr h))
      · split
        · exact fun h => .inr h
        · intro h
          rcases List.mem_cons.mp h with h | h
          · exact .inl (congrArg Prod.fst h)
          · exact .inr h

/-- The memory after reset is canonical. -/
theorem reset_dmem_wf : State.reset.dmem.wf = true := rfl

/-- A cell write keeps the canonical form. -/
theorem setCell_wf (s : State) (a v : Word) (h : s.dmem.wf = true) : (s.setCell a v).dmem.wf = true :=
  DMem.write_wf s.dmem a.toNat v h

/-- A cell write changes the cell written and no other. -/
theorem cell_setCell (s : State) (a v b : Word) (h : s.dmem.wf = true) :
    (s.setCell a v).cell b = if a = b then v else s.cell b := by
  simp only [State.cell, State.setCell_dmem, DMem.read_write _ _ _ _ h]
  by_cases hab : a = b
  · simp [hab]
  · have : a.toNat ≠ b.toNat := fun h => hab (BitVec.eq_of_toNat_eq h)
    simp [hab, this]

/-- What MemRead can do: hand over the cell, or raise DataOutOfRange. -/
theorem memRead_cases (s : State) (pcOf a : Word) (use : Word → State) :
    (s.dataAddrOk a = true ∧ s.memRead pcOf a use = use (s.cell a)) ∨
      (s.dataAddrOk a = false ∧ s.memRead pcOf a use = s.raise (.dataOutOfRange pcOf a)) := by
  cases h : s.dataAddrOk a <;> simp [State.memRead, h]

/-- What MemWrite can do: write the cell, or raise DataOutOfRange. -/
theorem memWrite_cases (s : State) (pcOf a v : Word) (after : State → State) :
    (s.dataAddrOk a = true ∧ s.memWrite pcOf a v after = after (s.setCell a v)) ∨
      (s.dataAddrOk a = false ∧ s.memWrite pcOf a v after = s.raise (.dataOutOfRange pcOf a)) := by
  cases h : s.dataAddrOk a <;> simp [State.memWrite, h]

end Sys2Proof.Machine
end

