-- ==== Sys2Proof/Laws/PerInstr.lean ====
section
/-!
SUPPORT. Laws/PerInstr.lean: facts about every instruction as syntax, one lemma for each constructor of `Instr`.
-/

namespace Sys2Proof.Laws.EncodedWordOk

/-- The word of an instruction is well formed: an assigned opcode, no reserved bit (spec 30_encoding.md R73, R76). -/
def Statement (i : Instr) : Prop := wordOk (encode i) = true

/-- The two checks on a word, said of the fields it was joined from. -/
theorem wordOk_joinFields (f : Fields) :
    wordOk (joinFields f) = (decide (1 ≤ f.op.toNat) && decide (f.op.toNat ≤ 15) && (f.resv == 0#8)) := by
  have h := splitWord_joinFields f
  have hop : (joinFields f).extractLsb' 56 8 = f.op := congrArg Fields.op h
  have hresv : (joinFields f).extractLsb' 32 8 = f.resv := congrArg Fields.resv h
  simp only [wordOk, opcodeAssigned, reservedClear, hop, hresv]

theorem movc (rd : Reg) (imm : Word) : Statement (.movc rd imm) := wordOk_joinFields _

theorem add (rd rs1 rs2 : Reg) : Statement (.add rd rs1 rs2) := wordOk_joinFields _

theorem sub (rd rs1 rs2 : Reg) : Statement (.sub rd rs1 rs2) := wordOk_joinFields _

theorem mul (rd rs1 rs2 : Reg) : Statement (.mul rd rs1 rs2) := wordOk_joinFields _

theorem and (rd rs1 rs2 : Reg) : Statement (.and rd rs1 rs2) := wordOk_joinFields _

theorem or (rd rs1 rs2 : Reg) : Statement (.or rd rs1 rs2) := wordOk_joinFields _

theorem exOr (rd rs1 rs2 : Reg) : Statement (.exOr rd rs1 rs2) := wordOk_joinFields _

theorem load (rd rs1 : Reg) (imm : Word) : Statement (.load rd rs1 imm) := wordOk_joinFields _

theorem store (rs1 rs2 : Reg) (imm : Word) : Statement (.store rs1 rs2 imm) := wordOk_joinFields _

theorem ldr (rd rs1 rs2 : Reg) : Statement (.ldr rd rs1 rs2) := wordOk_joinFields _

theorem str (rs1 rs2 rs3 : Reg) : Statement (.str rs1 rs2 rs3) := wordOk_joinFields _

theorem bz (imm : Word) : Statement (.bz imm) := wordOk_joinFields _

theorem bnz (imm : Word) : Statement (.bnz imm) := wordOk_joinFields _

theorem jump (rs1 : Reg) (imm : Word) : Statement (.jump rs1 imm) := wordOk_joinFields _

theorem halt : Statement (.halt) := wordOk_joinFields _

end Sys2Proof.Laws.EncodedWordOk
end

