-- ==== Sys2Proof/Laws/Registers.lean ====
section
/-!
SUPPORT. Laws/Registers.lean: reading after writing the register file and its validity bits.
-/

namespace Sys2Proof.Machine

/-- No register field names CC (spec 10_state.md R21). -/
theorem regSlot_ne_cc (r : Reg) : regSlot r ≠ ccSlot := by
  intro h
  have h1 : r.toNat = 16 := congrArg Fin.val h
  have := r.isLt
  omega

theorem readX_writeX (s : State) (i j : Slot) (v : Word) :
    (s.writeX i v).readX j = if i = j then v else s.readX j := by
  simp [State.readX, Vector.getElem_set, Fin.ext_iff]

theorem readV_writeV (s : State) (i j : Slot) (b : Bool) :
    (s.writeV i b).readV j = if i = j then b else s.readV j := by
  simp [State.readV, Vector.getElem_set, Fin.ext_iff]

@[simp] theorem readX_writeX_same (s : State) (i : Slot) (v : Word) : (s.writeX i v).readX i = v := by
  simp [readX_writeX]

@[simp] theorem readV_writeV_same (s : State) (i : Slot) (b : Bool) : (s.writeV i b).readV i = b := by
  simp [readV_writeV]

@[simp] theorem readV_writeX (s : State) (i j : Slot) (v : Word) : (s.writeX i v).readV j = s.readV j := rfl

@[simp] theorem readX_writeV (s : State) (i j : Slot) (b : Bool) : (s.writeV i b).readX j = s.readX j := rfl

/-- A register write never touches CC. -/
@[simp] theorem cc_writeX_reg (s : State) (r : Reg) (v : Word) : (s.writeX (regSlot r) v).cc = s.cc := by
  simp [State.cc, readX_writeX, regSlot_ne_cc]

/-- The condition code is 0 or 1. -/
theorem ccOf_bit (v : Word) : ccOf v = 0 ∨ ccOf v = 1 := by
  unfold ccOf
  split
  · exact .inr rfl
  · exact .inl rfl

end Sys2Proof.Machine
end

