-- ==== Sys2Proof/Laws/Units.lean ====
section
/-!
SUPPORT. Laws/Units.lean: what the shared unit actions and the cycle can do, said once.
-/

namespace Sys2Proof.Machine

/-! ### Unit actions -/

/-- What Fetch can do (spec 40_pipeline.md R121 to R124): stall, raise, or hand a latch to F and DRF. -/
theorem fetch_cases (s : State) :
    (s.L.drf.stalled = true ∧ s.fetch = s.setIsEmpty .f true) ∨
      (s.L.drf.stalled = false ∧ s.codeAddrOk s.pc = false ∧
        s.fetch = (s.setIsEmpty .f true).raise (.fetchOutOfRange s.pc)) ∨
      (s.L.drf.stalled = false ∧ s.codeAddrOk s.pc = true ∧
        s.fetch = { s with
          L := { s.L with f := s.fetchedLatch, drf := s.fetchedLatch.copyOver s.L.drf }
          pc := s.pc + BitVec.ofNat 32 insnStride }) := by
  cases h1 : s.L.drf.stalled <;> cases h2 : s.codeAddrOk s.pc <;> simp [State.fetch, h1, h2]

/-- What DRF can do with an instruction held back by its sources (R116, R119, R120). -/
theorem drfOnSources_cases (s : State) (n : Sources) :
    (s.sourcesReady n = true ∧ s.drfOnSources n = s.drfAdvance n) ∨
      (s.sourcesReady n = false ∧ s.drfOnSources n = s.drfStall) := by
  cases h : s.sourcesReady n <;> simp [State.drfOnSources, h]

/-- What DRF can do with a BZ or BNZ (R117, R119, R120). -/
theorem drfOnCc_cases (s : State) :
    (s.ccHazard = false ∧ s.drfOnCc = s.drfAdvance Sources.none) ∨ (s.ccHazard = true ∧ s.drfOnCc = s.drfStall) := by
  cases h : s.ccHazard <;> simp [State.drfOnCc, h]

/-- What EX2 can do with a BZ or BNZ (R111). -/
theorem ex2Branch_cases (s : State) (expects imm : Word) :
    (s.cc = expects ∧ s.ex2Branch expects imm = (s.requestFlush (s.L.ex2.pcPlusImm imm)).ex2Pass) ∨
      (s.cc ≠ expects ∧ s.ex2Branch expects imm = s.ex2Pass) := by
  by_cases h : s.cc = expects <;> simp [State.ex2Branch, h]

/-- What MEM2 can do with a load (R109). -/
theorem mem2Load_cases (s : State) :
    (s.dataAddrOk s.L.mem2.memAddress = true ∧
        s.mem2Load = s.advanceAndEmpty .mem2 { s.L.mem2 with buffer := s.cell s.L.mem2.memAddress }) ∨
      (s.dataAddrOk s.L.mem2.memAddress = false ∧
        s.mem2Load = s.raise (.dataOutOfRange s.L.mem2.pc s.L.mem2.memAddress)) :=
  memRead_cases s _ _ _

/-- What MEM2 can do with a store (R109). -/
theorem mem2Store_cases (s : State) :
    (s.dataAddrOk s.L.mem2.memAddress = true ∧
        s.mem2Store = (s.setCell s.L.mem2.memAddress s.L.mem2.rs1Value).mem2Pass) ∨
      (s.dataAddrOk s.L.mem2.memAddress = false ∧
        s.mem2Store = s.raise (.dataOutOfRange s.L.mem2.pc s.L.mem2.memAddress)) :=
  memWrite_cases s _ _ _ _

/-! ### Meanings -/

/-- Every meaning answers a next state in every unit: no instruction faults or is refused. -/
theorem exec_next (i : Instr) (s : State) : ∃ t, exec i s = .next t := by
  cases i <;> exact ⟨_, rfl⟩

/-- The same of every content of a latch (R77, R78). -/
theorem performContent_next (c : Content) (s : State) : ∃ t, performContent c s = .next t := by
  cases c with
  | instr i => exact exec_next i s
  | illegal => exact ⟨_, rfl⟩
  | endOfCode => exact ⟨_, rfl⟩

/-! ### The units in sequence -/

@[simp] theorem andThen_next (s : State) (k : State → Host.Outcome State Fault Refusal) :
    andThen (.next s) k = k s := rfl

/-- A sequence that answers a next state passed through one. -/
theorem andThen_eq_next {o : Host.Outcome State Fault Refusal} {k : State → Host.Outcome State Fault Refusal}
    {t : State} (h : andThen o k = .next t) : ∃ m, o = .next m ∧ k m = .next t := by
  cases o with
  | next m => exact ⟨m, rfl, h⟩
  | fault r => cases h
  | refused r => cases h

/-- Nothing runs after a raise (60_exceptions.md R204). -/
theorem runUnit_stopped (u : Stage) (s : State) (h : s.runState = .stopped) : runUnit u s = .next s := by
  simp [runUnit, h]

/-- What a unit from DRF to WB can do in a running cycle: perform the content of a fresh latch, or only set its display
flag (R102, R104, R133). -/
theorem runUnit_latch_cases (u : Stage) (s : State) (hu : u ≠ .f) (h : s.runState = .running) :
    ((s.S0.get u).fresh u = true ∧
        runUnit u s = performContent (s.content (s.latch u)) (({ s with unit := u }).setIsEmpty u false)) ∨
      ((s.S0.get u).fresh u = false ∧ runUnit u s = .next (({ s with unit := u }).setIsEmpty u true)) := by
  have hr : runUnit u s = latchUnit u s := by cases u <;> simp_all [runUnit]
  cases hf : (s.S0.get u).fresh u <;> simp [hr, latchUnit, hf]

/-- The Fetch unit in a running cycle. -/
theorem runUnit_fetch (s : State) (h : s.runState = .running) :
    runUnit .f s = performContent s.fetchedContent { s with unit := .f } := by
  simp [runUnit, h, fetchUnit]

/-! ### Reconciliation -/

/-- What the validity restore can do (R127). -/
theorem restoreValid_cases (s : State) :
    s.restoreValid = s ∨
      ∃ l, s.e1Done = some l ∧ s.launch.flushRestoresValid = true ∧ (s.cls l).writesRd = true ∧
        s.restoreValid = s.writeV (regSlot l.fields.rd) true := by
  unfold State.restoreValid
  split
  · exact .inl rfl
  · next l hl =>
    split
    · next h =>
      simp only [Bool.and_eq_true] at h
      exact .inr ⟨l, hl, h.1, h.2, rfl⟩
    · exact .inl rfl

/-- What the end of the cycle can do (R129). -/
theorem endCycle_cases (s : State) :
    (s.stopReq = .halt ∧ s.endCycle = { s with runState := .stopped, outcome := .halted }) ∨
      (s.stopReq = .drain ∧ s.endCycle = { s with runState := .stopped, outcome := .drained }) ∨
      (s.stopReq = .none ∧ s.endCycle = { s with clock := s.clock + 1 }) := by
  cases h : s.stopReq <;> simp [State.endCycle, h]

/-! ### The step -/

/-- What a step can do (R35, R130; 00_scope.md R6, R11): hold a stopped state, turn a launch away, end the run at the
cycle bound, or run a cycle. -/
theorem step_cases (s : State) :
    (s.runState = .stopped ∧ step s = .next s) ∨
      (s.runState = .running ∧ s.launch.parametersOk s.progLen = false ∧ step s = .fault .parametersOutOfRange) ∨
      (s.runState = .running ∧ s.launch.parametersOk s.progLen = true ∧ s.launch.programFits s.progLen = false ∧
        step s = .fault .loadFailure) ∨
      (s.runState = .running ∧ s.launchOk = true ∧ s.launch.maxCycles ≤ s.clock ∧
        step s = .next { s with runState := .stopped, outcome := .cycleBound }) ∨
      (s.runState = .running ∧ s.launchOk = true ∧ s.clock < s.launch.maxCycles ∧ step s = cycle s) := by
  cases hr : s.runState with
  | stopped => exact .inl ⟨rfl, by simp [step, runLoopStep, hr]⟩
  | running =>
    refine .inr ?_
    cases hp : s.launch.parametersOk s.progLen with
    | false => exact .inl ⟨rfl, rfl, by simp [step, runLoopStep, hr, hp]⟩
    | true =>
      refine .inr ?_
      cases hf : s.launch.programFits s.progLen with
      | false => exact .inl ⟨rfl, rfl, rfl, by simp [step, runLoopStep, hr, hp, hf]⟩
      | true =>
        have hok : s.launchOk = true := by simp [State.launchOk, Launch.ok, hp, hf]
        by_cases hb : s.launch.maxCycles ≤ s.clock
        · exact .inr (.inl ⟨rfl, hok, hb, by simp [step, runLoopStep, loopIteration, hr, hp, hf, hb]⟩)
        · exact .inr (.inr ⟨rfl, hok, by omega, by simp [step, runLoopStep, loopIteration, hr, hp, hf, hb]⟩)

end Sys2Proof.Machine
end

