-- ==== Sys2Proof/Machine/Observe.lean ====
section
/-!
DEFINITION. Machine/Observe.lean: what the block presents to its host (spec 60_exceptions.md R211 to R213; 30_encoding.md
R80): the final report, the verbose trace, the outcome's codes. All are functions of states; the text layout is host
formatting and out of scope (R4; notes/assumptions/9.md).
-/

namespace Sys2Proof.Machine

/-- The numeric code of a block fault (R200); host errors have none. -/
def Fault.code : Fault → Option Nat
  | .fetchOutOfRange _ => some 1
  | .dataOutOfRange _ _ => some 2
  | .illegalInstruction _ _ _ => some 3
  | .loadFailure => none
  | .parametersOutOfRange => none

/-- The host exit code of a fault: 2 for a fault of the block, 1 for a host error (R213, R214). -/
def Fault.exitCode (r : Fault) : Nat :=
  match r.code with
  | some _ => 2
  | none => 1

/-- The host exit code of an outcome (R213); a run that has not stopped has none. -/
def RunOutcome.exitCode : RunOutcome → Option Nat
  | .none => Option.none
  | .halted => some 0
  | .drained => some 0
  | .cycleBound => some 0
  | .fault r => some r.exitCode

/-- The number of cycles a stopped run has run (R130, R213): a cycle that stops the run does not increment `clock`. -/
def State.cyclesRun (s : State) : Nat :=
  match s.outcome with
  | .none => s.clock
  | .cycleBound => s.clock
  | .halted => s.clock + 1
  | .drained => s.clock + 1
  | .fault _ => s.clock + 1

/-- One row of the register file in the report: "index, value, VALID/INVALID" (R211). -/
structure SlotReport where
  index : Nat
  value : Word
  isValid : Bool
deriving DecidableEq, Repr

/-- The final report (R211). -/
structure Report where
  slots : List SlotReport
  /-- `DMEM[0..99]`. -/
  window : List Word
  outcome : RunOutcome
  insCompleted : Nat
  clock : Nat
deriving DecidableEq, Repr

/-- The report of a stopped run, whatever its outcome; none while the run goes on (R211). -/
def State.finalReport (s : State) : Option Report :=
  match s.runState with
  | .running => none
  | .stopped =>
    some
      { slots := (List.finRange 17).map fun i => ⟨i.val, s.readX i, s.readV i⟩
        window := (List.range dumpCells).map fun k => DMem.read s.dmem k
        outcome := s.outcome
        insCompleted := s.insCompleted
        clock := s.clock }

/-- A register operand, `R0` to `R15` (R80). -/
def renderReg (r : Reg) : String := "R" ++ toString r.toNat

/-- An immediate operand, `#` and a signed decimal integer (R80). -/
def renderImm (w : Word) : String := "#" ++ toString w.toInt

/-- The assembler rendering of an instruction (R80). -/
def renderInstr : Instr → String
  | .movc rd imm => "MOVC " ++ renderReg rd ++ "," ++ renderImm imm
  | .add rd rs1 rs2 => "ADD " ++ renderReg rd ++ "," ++ renderReg rs1 ++ "," ++ renderReg rs2
  | .sub rd rs1 rs2 => "SUB " ++ renderReg rd ++ "," ++ renderReg rs1 ++ "," ++ renderReg rs2
  | .mul rd rs1 rs2 => "MUL " ++ renderReg rd ++ "," ++ renderReg rs1 ++ "," ++ renderReg rs2
  | .and rd rs1 rs2 => "AND " ++ renderReg rd ++ "," ++ renderReg rs1 ++ "," ++ renderReg rs2
  | .or rd rs1 rs2 => "OR " ++ renderReg rd ++ "," ++ renderReg rs1 ++ "," ++ renderReg rs2
  | .exOr rd rs1 rs2 => "EX-OR " ++ renderReg rd ++ "," ++ renderReg rs1 ++ "," ++ renderReg rs2
  | .load rd rs1 imm => "LOAD " ++ renderReg rd ++ "," ++ renderReg rs1 ++ "," ++ renderImm imm
  | .store rs1 rs2 imm => "STORE " ++ renderReg rs1 ++ "," ++ renderReg rs2 ++ "," ++ renderImm imm
  | .ldr rd rs1 rs2 => "LDR " ++ renderReg rd ++ "," ++ renderReg rs1 ++ "," ++ renderReg rs2
  | .str rs1 rs2 rs3 => "STR " ++ renderReg rs1 ++ "," ++ renderReg rs2 ++ "," ++ renderReg rs3
  | .bz imm => "BZ " ++ renderImm imm
  | .bnz imm => "BNZ " ++ renderImm imm
  | .jump rs1 imm => "JUMP " ++ renderReg rs1 ++ "," ++ renderImm imm
  | .halt => "HALT"

/-- What the trace shows of a stage (R212). -/
inductive TraceEntry where
  | empty
  | instruction (pc : Word) (i : Instr)
  /-- An END latch: its pc, no mnemonic. -/
  | endOfCode (pc : Word)
  /-- An ILLEGAL latch: its pc and the word. -/
  | illegal (pc : Word) (word : InsnWord)
deriving DecidableEq, Repr

/-- How the trace shows the content of a latch (R212). -/
def State.traceEntry (s : State) (l : Latch) : TraceEntry :=
  match s.content l with
  | .instr i => .instruction l.pc i
  | .illegal => .illegal l.pc (joinFields l.fields)
  | .endOfCode => .endOfCode l.pc

/-- The trace of one cycle: its number and one entry for each stage, F first (R212). -/
structure Trace where
  cycle : Nat
  stages : List (Stage × TraceEntry)
deriving DecidableEq, Repr

/-- The stages in pipeline order (R27, R212). -/
def stageOrder : List Stage := [.f, .drf, .ex1, .ex2, .mem1, .mem2, .wb]

/-- The stage entry of the cycle from `s` to `t`: EMPTY if the stage's flag says so, else what the stage held at the
start of the cycle, or, for F, what it fetched (R212). -/
def traceStage (s t : State) (u : Stage) : TraceEntry :=
  if (t.L.get u).isEmpty then .empty
  else
    match u with
    | .f => s.traceEntry s.fetchedLatch
    | _ => s.traceEntry (s.L.get u)

/-- A cycle that ended in a raise (R204). -/
def RunOutcome.isFault : RunOutcome → Bool
  | .fault _ => true
  | .none => false
  | .halted => false
  | .drained => false
  | .cycleBound => false

/-- The trace of the cycle that starts in `s`: in verbose `MODE`, after each cycle that completes (R212). -/
def cycleTrace (s : State) : Option Trace :=
  match s.launch.mode, s.runState with
  | .verbose, .running =>
    if s.launchOk && decide (s.clock < s.launch.maxCycles) then
      match cycle s with
      | .next t =>
        if t.outcome.isFault then none
        else some { cycle := s.clock + 1, stages := stageOrder.map fun u => (u, traceStage s t u) }
      | .fault _ => none
      | .refused _ => none
    else none
  | _, _ => none

end Sys2Proof.Machine
end

