-- ==== Sys2Proof/Tests/Slice0.lean ====
section
/-!
SUPPORT. Tests/Slice0.lean: the model's own tests. Expected values come from spec 95_test_vectors.md (sections L2.1 to
L2.8), from the corner cases of the instruction rules, or from the words of 30_encoding.md R70 and R73 written out by hand.
The witnesses at the end show, for each statement with hypotheses, concrete values that meet them.
-/

namespace Sys2Proof.Tests

open Sys2Proof Sys2Proof.Machine Sys2Proof.Claims

/-! ### Helpers -/

/-- The outcome is a next state. -/
def isNext : Host.Outcome State Fault Refusal → Bool
  | .next _ => true
  | .fault _ => false
  | .refused _ => false

/-- The next state of an outcome that has one. -/
def outState : Host.Outcome State Fault Refusal → State
  | .next t => t
  | .fault _ => State.reset
  | .refused _ => State.reset

/-- The fault of an outcome that has one. -/
def outFault : Host.Outcome State Fault Refusal → Option Fault
  | .next _ => none
  | .fault r => some r
  | .refused _ => none

theorem eq_next (o : Host.Outcome State Fault Refusal) (h : isNext o = true) : o = .next (outState o) := by
  cases o with
  | next t => rfl
  | fault r => cases h
  | refused r => cases h

theorem noFault (t : State) (h : t.outcome = .none) : ∀ r, t.outcome ≠ .fault r := by
  intro r hr
  rw [h] at hr
  cases hr

/-- Reset with a program of two words: `END_ADDR` is 4008. -/
def two : State := { State.reset with imem := [encode (.add 3 1 2), encode .halt] }

/-- Two registers given a value. -/
def regs (a b : Word) : State := (two.writeX 1 a).writeX 2 b

/-- A latch fresh for `u` that holds `i` at 4000. -/
def held (u : Stage) (i : Instr) : Latch :=
  { Latch.reset with pc := 4000, fields := encodeFields i, done := u.upstream }

/-- `s` with `i` the occupant of `u`. -/
def inStage (u : Stage) (i : Instr) (s : State) : State :=
  { s with L := s.L.set u (held u i), S0 := s.S0.set u (held u i), unit := u }

/-- `s` after the whole life of `i`. -/
def after (i : Instr) (s : State) : State := outState (life i (inStage .drf i s))

/-- A register and CC. -/
def regCc (s : State) (r : Reg) : Word × Word := (s.readX (regSlot r), s.readX ccSlot)

/-- `s` after one step. -/
def stepped (s : State) : State := outState (step s)

/-! ### Ill-formed words and launches are refused -/

theorem test_illformed_opcode_zero : wordOk 0x0000000000000000 = false := by decide
theorem test_illformed_opcode_above : opcodeAssigned 0x1000000000000000 = false := by decide
theorem test_illformed_reserved_bits : reservedClear 0x0110000100000001 = false := by decide
theorem test_illformed_code_base_zero : ({ Launch.standard with codeBase := 0 } : Launch).parametersOk 1 = false := by
  decide
theorem test_illformed_end_too_high :
    ({ Launch.standard with codeBase := 2 ^ 32 - 67 } : Launch).parametersOk 1 = false := by decide
theorem test_illformed_few_cells : ({ Launch.standard with dmemCells := 99 } : Launch).parametersOk 1 = false := by
  decide
theorem test_illformed_many_cells :
    ({ Launch.standard with dmemCells := 2 ^ 31 + 1 } : Launch).parametersOk 1 = false := by decide
theorem test_illformed_program_too_long : ({ Launch.standard with imemCap := 1 } : Launch).programFits 2 = false := by
  decide
theorem test_wellformed_bounds :
    (⟨2 ^ 32 - 68, 1, 2 ^ 31, 0, true, .silent⟩ : Launch).ok 1 = true ∧
      (⟨1, 0, 100, 0, true, .silent⟩ : Launch).ok 0 = true := by decide

/-! ### Decoding words written out from R70 and R73 (L2.1, L2.2) -/

theorem test_decode_movc : decode? 0x01100000FFFFFFFF = some (.movc 1 0xFFFFFFFF) := by decide
theorem test_decode_add : decode? 0x0231200000000000 = some (.add 3 1 2) := by decide
theorem test_decode_sub : decode? 0x0331200000000000 = some (.sub 3 1 2) := by decide
theorem test_decode_mul : decode? 0x0431200000000000 = some (.mul 3 1 2) := by decide
theorem test_decode_and : decode? 0x0531200000000000 = some (.and 3 1 2) := by decide
theorem test_decode_or : decode? 0x0631200000000000 = some (.or 3 1 2) := by decide
theorem test_decode_exOr : decode? 0x07FED00000000000 = some (.exOr 15 14 13) := by decide
theorem test_decode_load : decode? 0x08320000FFFFFFFE = some (.load 3 2 0xFFFFFFFE) := by decide
theorem test_decode_store : decode? 0x0901200000000002 = some (.store 1 2 2) := by decide
theorem test_decode_ldr : decode? 0x0A63400000000000 = some (.ldr 6 3 4) := by decide
theorem test_decode_str : decode? 0x0B02340000000000 = some (.str 2 3 4) := by decide
theorem test_decode_bz : decode? 0x0C0000000000000C = some (.bz 12) := by decide
theorem test_decode_bnz : decode? 0x0D000000FFFFFFF8 = some (.bnz 0xFFFFFFF8) := by decide
theorem test_decode_jump : decode? 0x0E01000000000000 = some (.jump 1 0) := by decide
theorem test_decode_halt : decode? 0x0F00000000000000 = some .halt := by decide
theorem test_decode_ignores_unused : decode? 0x0FFFFF00FFFFFFFF = some .halt := by decide
theorem test_decode_reserved : decode? 0x0110000100000001 = none := by decide
theorem test_decode_zero_word : decode? 0x0000000000000000 = none := by decide
theorem test_decode_high_opcode : decode? 0xFF00000000000000 = none := by decide
theorem test_decode_table_word : decodeTableWord 64 0x0901200000000002 = some (.store 1 2 2) := by decide
theorem test_encode_str : encode (.str 2 3 4) = 0x0B02340000000000 := by decide
theorem test_encode_load : encode (.load 3 2 0xFFFFFFFE) = 0x08320000FFFFFFFE := by decide

/-! ### Instructions (L2.2 to L2.5) -/

theorem test_movc_keeps_cc : regCc (after (.movc 1 0) (two.writeX ccSlot 1)) 1 = (0, 1) := by decide
theorem test_movc_minus_one : regCc (after (.movc 15 0xFFFFFFFF) two) 15 = (0xFFFFFFFF, 0) := by decide
theorem test_add_overflows : regCc (after (.add 3 1 2) (regs 0x7FFFFFFF 1)) 3 = (0x80000000, 0) := by decide
theorem test_add_wraps : regCc (after (.add 3 1 2) (regs 0xFFFFFFFF 1)) 3 = (0, 1) := by decide
theorem test_sub_borrows : regCc (after (.sub 3 1 2) (regs 0 1)) 3 = (0xFFFFFFFF, 0) := by decide
theorem test_sub_order : regCc (after (.sub 3 1 2) (regs 10 3)) 3 = (7, 0) := by decide
theorem test_mul_low_word : regCc (after (.mul 3 1 2) (regs 0x10000 0x10000)) 3 = (0, 1) := by decide
theorem test_mul_negative : regCc (after (.mul 3 1 2) (regs 0xFFFFFFFE 3)) 3 = (0xFFFFFFFA, 0) := by decide
theorem test_and_plain : regCc (after (.and 3 1 2) (regs 0xF0F0 0xFF0)) 3 = (0xF0, 0) := by decide
theorem test_or_plain : regCc (after (.or 3 1 2) (regs 0xF000000F 0x0FF00000)) 3 = (0xFFF0000F, 0) := by decide
theorem test_exOr_same : regCc (after (.exOr 3 1 2) (regs 0x12345678 0x12345678)) 3 = (0, 1) := by decide
theorem test_exOr_mask : regCc (after (.exOr 3 1 2) (regs 0xFFFFFFFF 0x0F0F0F0F)) 3 = (0xF0F0F0F0, 0) := by decide
theorem test_load_negative_offset :
    regCc (after (.load 3 2 0xFFFFFFFE) ((regs 0 8).setCell 6 9)) 3 = (9, 0) := by decide
theorem test_load_one_past : (after (.load 3 2 1) (regs 0 4095)).outcome = .fault (.dataOutOfRange 4000 4096) := by
  decide
theorem test_store_cell : (after (.store 1 2 2) (regs 42 8)).dmem = [(10, 42)] := by decide
theorem test_store_one_past : (after (.store 1 2 0) (regs 1 4096)).outcome = .fault (.dataOutOfRange 4000 4096) := by
  decide
theorem test_ldr_wraps : regCc (after (.ldr 6 1 2) ((regs 0xFFFFFFFF 1).setCell 0 5)) 6 = (5, 0) := by decide
theorem test_ldr_same_register : regCc (after (.ldr 1 1 1) ((regs 3 0).setCell 6 66)) 1 = (66, 0) := by decide
theorem test_str_cell : (after (.str 1 1 2) (regs 3 4)).dmem = [(7, 3)] := by decide
theorem test_str_no_destination : (after (.str 1 1 2) (regs 3 4)).x = (regs 3 4).x := by decide
theorem test_bz_taken : (after (.bz 12) (two.writeX ccSlot 1)).flushTarget = 4012 := by decide
theorem test_bz_not_taken : (after (.bz 12) two).flushPending = false := by decide
theorem test_bnz_taken : (after (.bnz 0xFFFFFFF8) two).flushTarget = 3992 := by decide
theorem test_bnz_not_taken : (after (.bnz 12) (two.writeX ccSlot 1)).flushPending = false := by decide
theorem test_jump_absolute : (after (.jump 1 4) (regs 4016 0)).flushTarget = 4020 := by decide
theorem test_halt_stops : (stepped (inStage .wb .halt two)).outcome = .halted := by decide
theorem test_halt_redirects : (stepped (inStage .ex2 .halt two)).pc = 4008 := by decide

/-! ### One step -/

theorem test_step_fetches : (stepped two).L.drf.fields.op = 2 ∧ (stepped two).pc = 4004 := by decide
theorem test_step_runs_the_placed_word :
    (stepped (State.reset.withFetchWord 64 0x0110000000000005)).L.drf.fields = encodeFields (.movc 1 5) := by decide
theorem test_flush_redirects :
    (stepped (inStage .ex2 (.bz 12) (two.writeX ccSlot 1))).pc = 4012 := by decide
theorem test_bound_zero :
    (stepped { two with launch := { two.launch with maxCycles := 0 } }).outcome = .cycleBound := by decide
theorem test_code_base_zero_is_no_run :
    outFault (step { two with launch := { two.launch with codeBase := 0 } }) = some .parametersOutOfRange := by decide
theorem test_too_long_is_no_run :
    outFault (step { two with launch := { two.launch with imemCap := 1 } }) = some .loadFailure := by decide
theorem test_exit_codes :
    RunOutcome.exitCode .cycleBound = some 0 ∧ RunOutcome.exitCode (.fault (.fetchOutOfRange 1)) = some 2 := by decide
theorem test_render_load : renderInstr (.load 3 2 0xFFFFFFFE) = "LOAD R3,R2,#-2" := by decide

/-! ### Witnesses: values that meet the hypotheses of the statements -/

/-- `two` with pc at the last word of the program. -/
def atLast : State := { two with pc := 4004 }

/-- `two` with pc at `END_ADDR`. -/
def atEnd : State := { two with pc := 4008 }

/-- A state with register 1 INVALID and an instruction in DRF. -/
def invalid1 : State := two.writeV 1 false

theorem witness_FetchHandsTheWordToDecode :
    (two.L.drf.stalled = false ∧ two.launch.codeBase ≤ two.pc.toNat ∧
      (two.pc.toNat - two.launch.codeBase) % 4 = 0 ∧ two.pc.toNat < two.endAddr) ∧
    (atLast.L.drf.stalled = false ∧ atLast.launch.codeBase ≤ atLast.pc.toNat ∧
      (atLast.pc.toNat - atLast.launch.codeBase) % 4 = 0 ∧ atLast.pc.toNat < atLast.endAddr) := by decide

theorem witness_FetchPastTheEndFormsAnEndLatch :
    atEnd.L.drf.stalled = false ∧ atEnd.launch.codeBase ≤ atEnd.pc.toNat ∧
      (atEnd.pc.toNat - atEnd.launch.codeBase) % 4 = 0 ∧ atEnd.endAddr ≤ atEnd.pc.toNat := by decide

theorem witness_FetchFromAnIllegalAddressEndsTheRun :
    two.L.drf.stalled = false ∧ ({ two with pc := 3999 } : State).pc.toNat < two.launch.codeBase ∧
      (({ two with pc := 4001 } : State).pc.toNat - two.launch.codeBase) % 4 ≠ 0 := by decide

theorem witness_FetchStallsBehindAStalledDecode :
    ({ two with L := { two.L with drf := { two.L.drf with stalled := true } } } : State).L.drf.stalled = true := rfl

theorem witness_DecodeStallsOnAnInvalidSource :
    ∃ r ∈ sourcesOf (.str 2 3 1), invalid1.readV (regSlot r) = false := ⟨1, by decide, by decide⟩

theorem witness_DecodeReadsValidSourcesAndAdvances :
    (Instr.str 1 2 3).cls ≠ .branch ∧ Instr.str 1 2 3 ≠ .halt ∧ AllValid two (sourcesOf (.str 1 2 3)) ∧
      AllValid invalid1 (sourcesOf (.movc 1 5)) := by
  refine ⟨by decide, by decide, ?_, ?_⟩ <;> intro r hr
  · exact (by decide : ∀ j, two.readV j = true) _
  · cases hr

theorem witness_BranchesWaitForArithmeticAhead :
    ArithmeticAhead (inStage .mem2 (.add 3 1 2) two) ∧ ArithmeticAhead (inStage .ex1 (.sub 3 1 2) two) ∧
      ¬ ArithmeticAhead (inStage .wb (.add 3 1 2) two) := by
  refine ⟨⟨.mem2, by decide, by decide, by decide⟩, ⟨.ex1, by decide, by decide, by decide⟩, ?_⟩
  rintro ⟨u, hu | hu | hu | hu, hf, -⟩ <;> subst hu <;> exact absurd hf (by decide)

theorem witness_HaltInDecodeRaisesTheWeakHalt :
    ¬ Contended (inStage .mem1 (.bz 4) two) .ex1 .ex2 ∧ Contended (inStage .ex2 (.bz 4) two) .ex1 .ex2 ∧
      Contended (inStage .ex1 (.jump 1 4) two) .ex1 .ex2 := by unfold Contended; decide

theorem witness_ArithmeticResultsInExecute1 :
    ({ (two.L.ex1) with rs1Value := 0, rs2Value := 1 } : Latch).rs1Value = 0 ∧
      ({ (two.L.ex1) with rs1Value := 0, rs2Value := 1 } : Latch).rs2Value = 1 := by decide

theorem witness_BranchesResolveInExecute2 :
    (two.writeX ccSlot 1).readX ccSlot = 1 ∧ two.readX ccSlot ≠ 1 ∧ two.readX ccSlot = 0 ∧
      (two.writeX ccSlot 1).readX ccSlot ≠ 0 := by decide

theorem witness_HaltInExecute2RaisesTheStrongHalt :
    ¬ Contended (inStage .mem1 (.bz 4) two) .ex1 .drf ∧ Contended (inStage .drf (.bnz 4) two) .ex1 .drf := by
  unfold Contended; decide

theorem witness_StagesPassOnOtherInstructions :
    ((Instr.add 3 1 2).cls ≠ .branch ∧ (Instr.add 3 1 2).cls ≠ .jump ∧ (Instr.add 3 1 2).cls ≠ .halt) ∧
    ((Instr.bz 4).cls ≠ .load ∧ (Instr.bz 4).cls ≠ .ldr ∧ (Instr.bz 4).cls ≠ .store ∧ (Instr.bz 4).cls ≠ .str) ∧
    (Content.illegal.cls ≠ .branch ∧ Content.illegal.cls ≠ .jump ∧ Content.illegal.cls ≠ .halt) ∧
    (Content.endOfCode.cls ≠ .load ∧ Content.endOfCode.cls ≠ .ldr ∧ Content.endOfCode.cls ≠ .store ∧
      Content.endOfCode.cls ≠ .str) ∧
    (Content.illegal.cls = .illegal ∧ Content.endOfCode.cls = .endOfCode) := by
  decide

/-- MEM2's latch with an address. -/
def mem2At (a : Word) : State := two.setLatch .mem2 { held .mem2 (.load 3 2 0) with memAddress := a, rs1Value := 7 }

theorem witness_LoadsReadTheirCell :
    (mem2At 4095).L.mem2.memAddress.toNat < (mem2At 4095).launch.dmemCells ∧
      (mem2At 0).L.mem2.memAddress.toNat < (mem2At 0).launch.dmemCells := by decide

theorem witness_StoresWriteTheirCellAndNoOther :
    (mem2At 4095).dmem.wf = true ∧ (mem2At 4095).L.mem2.memAddress.toNat < (mem2At 4095).launch.dmemCells := by decide

theorem witness_OutOfRangeAccessEndsTheRun :
    (mem2At 4096).launch.dmemCells ≤ (mem2At 4096).L.mem2.memAddress.toNat ∧
      (mem2At 0xFFFFFFFF).launch.dmemCells ≤ (mem2At 0xFFFFFFFF).L.mem2.memAddress.toNat := by decide

theorem witness_ResultsCommitInWriteback :
    ∃ t : State, t = afterWb ((two.writeV (regSlot 15) true).writeX (regSlot 15) two.L.wb.buffer) := ⟨_, rfl⟩

theorem witness_OnlyArithmeticWritebackWritesCc :
    ((Instr.and 3 1 2).cls = .arith ∧ (Instr.and 3 1 2).dest = some 3) ∧
    (isNext (exec (.load 3 1 0) (inStage .wb (.load 3 1 0) two)) = true ∧ (Instr.load 3 1 0).cls ≠ .arith) ∧
    (isNext (exec (.add 3 1 2) (inStage .ex1 (.add 3 1 2) two)) = true ∧
      (inStage .ex1 (.add 3 1 2) two).unit ≠ .wb) := by decide

theorem witness_ExecFrame :
    (two.setCell 4095 1).dmem.wf = true ∧
      exec (.store 1 2 0) (inStage .mem2 (.store 1 2 0) (two.setCell 4095 1)) =
        .next (outState (exec (.store 1 2 0) (inStage .mem2 (.store 1 2 0) (two.setCell 4095 1)))) :=
  ⟨by decide, eq_next _ (by decide)⟩

theorem witness_LifeOfArithmetic :
    (Instr.mul 1 1 2).cls = .arith ∧ (Instr.mul 1 1 2).dest = some 1 ∧ AllValid two (sourcesOf (.mul 1 1 2)) :=
  ⟨rfl, rfl, fun r _ => (by decide : ∀ j, two.readV j = true) (regSlot r)⟩

theorem witness_LifeOfLoads :
    (Instr.ldr 1 1 2).cls = .ldr ∧ (Instr.ldr 1 1 2).dest = some 1 ∧
      AllValid (regs 4000 95) (sourcesOf (.ldr 1 1 2)) ∧ accessOf (regs 4000 95) (.ldr 1 1 2) = some 4095 ∧
      (4095 : Word).toNat < (regs 4000 95).launch.dmemCells :=
  ⟨rfl, rfl, fun r _ => (by decide : ∀ j, (regs 4000 95).readV j = true) (regSlot r), by decide, by decide⟩

theorem witness_LifeOfStores :
    (Instr.store 1 2 1).cls = .store ∧ (regs 7 0xFFFFFFFF).dmem.wf = true ∧
      AllValid (regs 7 0xFFFFFFFF) (sourcesOf (.store 1 2 1)) ∧
      accessOf (regs 7 0xFFFFFFFF) (.store 1 2 1) = some 0 ∧ storedOf (regs 7 0xFFFFFFFF) (.store 1 2 1) = some 7 ∧
      (0 : Word).toNat < (regs 7 0xFFFFFFFF).launch.dmemCells :=
  ⟨rfl, rfl, fun r _ => (by decide : ∀ j, (regs 7 0xFFFFFFFF).readV j = true) (regSlot r), by decide, by decide,
    by decide⟩

theorem witness_LifeOfBranches :
    ¬ ArithmeticAhead two ∧ true = decide ((two.writeX ccSlot 1).readX ccSlot = 1) ∧
      false = decide (two.readX ccSlot = 1) ∧ true = decide (two.readX ccSlot = 0) ∧
      ¬ ArithmeticAhead (two.writeX ccSlot 1) := by
  have h : ∀ s : State, s.S0 = Latches.reset → ¬ ArithmeticAhead s := by
    rintro s hs ⟨u, -, hf, -⟩
    rw [hs] at hf
    revert hf
    cases u <;> decide
  exact ⟨h _ rfl, by decide, by decide, by decide, h _ rfl⟩

theorem witness_LifeOfJump : two.readV (regSlot 15) = true := by decide

theorem witness_LifeOfHalt : ¬ Contended two .ex1 .ex2 ∧ ¬ Contended two .ex1 .drf := by unfold Contended; decide

/-- DRF, EX1, EX2, MEM1, MEM2 and WB are not fresh in a state whose latches are those of reset. -/
theorem empty_of_reset_latches (s : State) (h : s.L = Latches.reset) : PipelineEmpty s := by
  constructor
  · rw [h]; rfl
  · intro u _
    unfold State.latch
    rw [h]
    cases u <;> decide

theorem witness_StepRunsTheDecodedInstructions :
    two.CycleNext ∧
      (Stage.wb ≠ .f ∧ (inStage .wb (.movc 1 5) two).runState = .running ∧
        ((inStage .wb (.movc 1 5) two).S0.get .wb).fresh .wb = true ∧
        (inStage .wb (.movc 1 5) two).content ((inStage .wb (.movc 1 5) two).latch .wb) = .instr (.movc 1 5)) ∧
      (two.runState = .running ∧ (two.S0.get .ex1).fresh .ex1 = false) ∧
      (two.runState = .running ∧ two.pc.toNat < two.endAddr ∧ decode? (two.imemAt two.pc) = some (.add 3 1 2)) ∧
      ({ two with pc := 4008 } : State).endAddr ≤ ({ two with pc := 4008 } : State).pc.toNat ∧
      ({ two with runState := .stopped } : State).runState = .stopped := by
  unfold State.CycleNext; decide

/-- An all-zero word at pc is ILLEGAL (L2.1). -/
theorem witness_StepRunsTheDecodedInstructions_illegal :
    ({ two with imem := [0] } : State).runState = .running ∧
      ({ two with imem := [0] } : State).pc.toNat < ({ two with imem := [0] } : State).endAddr ∧
      decodeWord (({ two with imem := [0] } : State).imemAt 4000) = .error (.unassignedOpcode 0) :=
  ⟨rfl, by decide, rfl⟩

/-- `FetchesInstr` of a checked state. -/
theorem fetchesInstr (s : State) (i : Instr) (h : (s.codeAddrOk s.pc && decide (s.pc.toNat < s.endAddr)) = true)
    (hd : decode? (s.imemAt s.pc) = some i) : FetchesInstr s i := by
  simp only [Bool.and_eq_true, decide_eq_true_eq] at h
  refine ⟨h.1, h.2, ?_⟩
  unfold decode? at hd
  split at hd
  · next j hj => rw [hj]; simp_all
  · cases hd

theorem witness_StepFromAnEmptyPipelineFetches :
    two.CycleNext ∧ PipelineEmpty two ∧ FetchesInstr two (.add 3 1 2) ∧ FetchesInstr atLast .halt :=
  ⟨by unfold State.CycleNext; decide, empty_of_reset_latches _ rfl, fetchesInstr _ _ (by decide) (by decide),
    fetchesInstr _ _ (by decide) (by decide)⟩

theorem witness_StoppedMachineHoldsItsState : ({ two with runState := .stopped } : State).runState = .stopped := rfl

theorem witness_CycleBoundEndsTheRun :
    ({ two with clock := 200 } : State).runState = .running ∧ ({ two with clock := 200 } : State).launchOk = true ∧
      ({ two with clock := 200 } : State).launch.maxCycles ≤ ({ two with clock := 200 } : State).clock := by decide

theorem witness_EveryStepCompletes :
    two.launchOk = true ∧ ({ two with launch := { two.launch with imemCap := 1 } } : State).launchOk = false ∧
      ({ two with launch := { two.launch with dmemCells := 99 } } : State).launchOk = false ∧
      ({ two with launch := { two.launch with imemCap := 2 } } : State).launchOk = true := by decide

theorem witness_StepKeepsTheProgram : step two = .next (stepped two) := eq_next _ (by decide)

theorem witness_StepKeepsTheCoreInvariant : State.CoreInv two ∧ step two = .next (stepped two) :=
  ⟨{ memoryCanonical := rfl
     memoryInRange := by intro a w h; cases h
     ccIsBit := by decide
     ccValid := by decide
     neverBusy := by intro u; cases u <;> rfl
     notStalledBelowDrf := by intro u _ _; cases u <;> rfl
     stalledDrfFresh := by intro h; cases h
     outcomeIffStopped := by decide
     signalsCleared := by decide
     clockBounded := by decide }, eq_next _ (by decide)⟩

/-- Register 3 INVALID with its writer in MEM1. -/
def writerInFlight : State := (inStage .mem1 (.add 3 1 2) two).writeV 3 false

theorem witness_InvalidRegistersHaveAWriterInFlight :
    writerInFlight.launch.flushRestoresValid = true ∧ writerInFlight.InvalidHasWriter ∧
      writerInFlight.readV 3 = false ∧ step writerInFlight = .next (stepped writerInFlight) := by
  refine ⟨rfl, ?_, by decide, eq_next _ (by decide)⟩
  intro i hi
  have h : i = 3 := by revert i; decide
  subst h
  exact ⟨.mem1, .inr (.inl rfl), by decide, by decide, by decide⟩

/-- A store as the last instruction of the program. -/
def loneStore : State := { regs 7 4095 with imem := [encode .halt, encode (.store 1 2 0)], pc := 4004 }

theorem witness_LoneInstructionCompletesInSevenCycles :
    loneStore.runState = .running ∧ loneStore.launchOk = true ∧ loneStore.clock + 7 ≤ loneStore.launch.maxCycles ∧
      PipelineEmpty loneStore ∧ (∀ j, loneStore.readV j = true) ∧ FetchesInstr loneStore (.store 1 2 0) ∧
      loneStore.pc.toNat + 4 = loneStore.endAddr ∧
      ((Instr.store 1 2 0).cls ≠ .branch ∧ (Instr.store 1 2 0).cls ≠ .jump ∧ (Instr.store 1 2 0).cls ≠ .halt) ∧
      accessOf loneStore (.store 1 2 0) = some 4095 ∧ (4095 : Word).toNat < loneStore.launch.dmemCells :=
  ⟨rfl, by decide, by decide, empty_of_reset_latches _ rfl, by decide, fetchesInstr _ _ (by decide) (by decide),
    by decide, by decide, by decide, by decide⟩

/-- A BZ in EX2 with CC = 1, a JUMP in EX2, a BNZ in EX2 behind an arithmetic result that is not zero. -/
def bzTaken : State := inStage .ex2 (.bz 8) (two.writeX ccSlot 1)
def bzDiscards : State := inStage .ex1 (.movc 5 9) bzTaken
def jumpInEx2 : State := inStage .ex1 (.movc 5 9) (inStage .ex2 (.jump 1 0) two)
def bnzBehindAdd : State :=
  inStage .ex2 (.bnz 8) (({ two with L := { two.L with wb := { held .wb (.add 3 1 2) with buffer := 4 } } } : State).writeX
    ccSlot 1)

theorem witness_FlushAndHaltExcludeEachOther :
    runUnits unitOrder bzTaken.beginCycle = .next (outState (runUnits unitOrder bzTaken.beginCycle)) ∧
      (outState (runUnits unitOrder bzTaken.beginCycle)).flushPending = true :=
  ⟨eq_next _ (by decide), by decide⟩

theorem witness_TakenTransfersFlushFourStages :
    (bzTaken.CycleNext ∧ Holds bzTaken .ex2 (.bz 8) ∧
      (1 : Word) = (if (bzTaken.L.wb.fresh .wb && decide (bzTaken.cls bzTaken.L.wb = .arith)) = true then
        (if bzTaken.L.wb.buffer = 0 then 1 else 0) else bzTaken.readX ccSlot) ∧
      step bzTaken = .next (stepped bzTaken) ∧ (∀ r, (stepped bzTaken).outcome ≠ .fault r)) ∧
    (bnzBehindAdd.CycleNext ∧ Holds bnzBehindAdd .ex2 (.bnz 8) ∧
      (0 : Word) = (if (bnzBehindAdd.L.wb.fresh .wb && decide (bnzBehindAdd.cls bnzBehindAdd.L.wb = .arith)) = true then
        (if bnzBehindAdd.L.wb.buffer = 0 then 1 else 0) else bnzBehindAdd.readX ccSlot) ∧
      step bnzBehindAdd = .next (stepped bnzBehindAdd) ∧ (∀ r, (stepped bnzBehindAdd).outcome ≠ .fault r)) ∧
    (jumpInEx2.CycleNext ∧ Holds jumpInEx2 .ex2 (.jump 1 0) ∧ step jumpInEx2 = .next (stepped jumpInEx2) ∧
      (∀ r, (stepped jumpInEx2).outcome ≠ .fault r)) := by
  unfold State.CycleNext Holds
  refine ⟨⟨by decide, by decide, by decide, eq_next _ (by decide), noFault _ (by decide)⟩,
    ⟨by decide, by decide, by decide, eq_next _ (by decide), noFault _ (by decide)⟩,
    ⟨by decide, by decide, eq_next _ (by decide), noFault _ (by decide)⟩⟩

/-- A HALT in DRF and one in EX2. -/
def haltInDrf : State := inStage .mem1 (.jump 1 0) (inStage .drf .halt two)
def haltInEx2 : State := inStage .ex1 (.movc 5 9) (inStage .ex2 .halt two)

theorem notBranchy (s : State) (u : Stage) (h : (((s.latch u).fresh u) && (s.cls (s.latch u)).branchy) = false) :
    ¬ BranchyIn s u := by
  rintro ⟨i, ⟨hf, hc⟩, hb⟩
  simp [hf, State.cls, hc, Content.cls, hb] at h

theorem witness_UncontendedHaltsRedirectToTheEnd :
    (haltInDrf.CycleNext ∧ step haltInDrf = .next (stepped haltInDrf) ∧ (∀ r, (stepped haltInDrf).outcome ≠ .fault r) ∧
      Holds haltInDrf .drf .halt ∧ ¬ BranchyIn haltInDrf .ex1 ∧ ¬ BranchyIn haltInDrf .ex2) ∧
    (haltInEx2.CycleNext ∧ step haltInEx2 = .next (stepped haltInEx2) ∧ (∀ r, (stepped haltInEx2).outcome ≠ .fault r) ∧
      Holds haltInEx2 .ex2 .halt ∧ ¬ BranchyIn haltInEx2 .ex1 ∧ ¬ BranchyIn haltInEx2 .drf) := by
  unfold State.CycleNext Holds
  exact ⟨⟨by decide, eq_next _ (by decide), noFault _ (by decide), by decide, notBranchy _ _ (by decide),
      notBranchy _ _ (by decide)⟩,
    ⟨by decide, eq_next _ (by decide), noFault _ (by decide), by decide, notBranchy _ _ (by decide),
      notBranchy _ _ (by decide)⟩⟩

theorem witness_DiscardedWriterIsRevalidatedIfConfigured :
    (bzDiscards.CycleNext ∧ Holds bzDiscards .ex1 (.movc 5 9) ∧ (Instr.movc 5 9).dest = some 5 ∧
      (∃ target, TransfersTo bzDiscards target) ∧ step bzDiscards = .next (stepped bzDiscards) ∧
      (∀ r, (stepped bzDiscards).outcome ≠ .fault r)) ∧
    (jumpInEx2.CycleNext ∧ Holds jumpInEx2 .ex1 (.movc 5 9) ∧ (∃ target, TransfersTo jumpInEx2 target) ∧
      step jumpInEx2 = .next (stepped jumpInEx2) ∧ (∀ r, (stepped jumpInEx2).outcome ≠ .fault r)) ∧
    (haltInEx2.CycleNext ∧ Holds haltInEx2 .ex1 (.movc 5 9) ∧ Holds haltInEx2 .ex2 .halt ∧ ¬ BranchyIn haltInEx2 .drf ∧
      step haltInEx2 = .next (stepped haltInEx2) ∧ (∀ r, (stepped haltInEx2).outcome ≠ .fault r)) := by
  unfold State.CycleNext TransfersTo Holds
  exact ⟨⟨by decide, by decide, by decide, ⟨_, .inl ⟨8, by decide, by decide, rfl⟩⟩, eq_next _ (by decide),
      noFault _ (by decide)⟩,
    ⟨by decide, by decide, ⟨_, .inr (.inr ⟨1, 0, by decide, rfl⟩)⟩, eq_next _ (by decide), noFault _ (by decide)⟩,
    ⟨by decide, by decide, by decide, notBranchy _ _ (by decide), eq_next _ (by decide), noFault _ (by decide)⟩⟩

/-- An instruction in MEM1 and one in MEM2. -/
def inMem1 : State := inStage .mem1 .halt two
def inMem2 : State := inStage .mem2 (.bz 4) two

theorem witness_InstructionsMoveDownEachCycle :
    (jumpInEx2.CycleNext ∧ (jumpInEx2.latch .ex2).fresh .ex2 = true ∧ step jumpInEx2 = .next (stepped jumpInEx2) ∧
      ∀ r, (stepped jumpInEx2).outcome ≠ .fault r) ∧
    (inMem1.CycleNext ∧ (inMem1.latch .mem1).fresh .mem1 = true ∧ step inMem1 = .next (stepped inMem1) ∧
      ∀ r, (stepped inMem1).outcome ≠ .fault r) ∧
    (inMem2.CycleNext ∧ (inMem2.latch .mem2).fresh .mem2 = true ∧ step inMem2 = .next (stepped inMem2) ∧
      ∀ r, (stepped inMem2).outcome ≠ .fault r) := by
  unfold State.CycleNext
  exact ⟨⟨by decide, by decide, eq_next _ (by decide), noFault _ (by decide)⟩,
    ⟨by decide, by decide, eq_next _ (by decide), noFault _ (by decide)⟩,
    ⟨by decide, by decide, eq_next _ (by decide), noFault _ (by decide)⟩⟩

/-- An ADD in WB whose result is zero. -/
def addInWb : State := inStage .wb (.add 3 1 2) (two.writeX 3 9)

theorem witness_RegistersChangeOnlyInWriteback :
    step addInWb = .next (stepped addInWb) ∧ (stepped addInWb).readX 3 ≠ addInWb.readX 3 ∧
      (stepped addInWb).readX ccSlot ≠ addInWb.readX ccSlot := ⟨eq_next _ (by decide), by decide, by decide⟩

/-- A STORE in MEM2 to the last cell. -/
def storeInMem2 : State := two.setLatch .mem2 { held .mem2 (.store 1 2 0) with memAddress := 4095, rs1Value := 7 }

theorem witness_CellsChangeOnlyByAStore :
    storeInMem2.dmem.wf = true ∧ step storeInMem2 = .next (stepped storeInMem2) ∧
      (stepped storeInMem2).cell 4095 ≠ storeInMem2.cell 4095 := ⟨rfl, eq_next _ (by decide), by decide⟩

theorem witness_WritebackCountsEveryInstruction :
    addInWb.CycleNext ∧ step addInWb = .next (stepped addInWb) ∧ Holds addInWb .wb (.add 3 1 2) ∧
      two.CycleNext ∧ step two = .next (stepped two) ∧ ¬ ∃ i, Holds two .wb i := by
  unfold State.CycleNext Holds
  refine ⟨by decide, eq_next _ (by decide), by decide, by decide, eq_next _ (by decide), ?_⟩
  rintro ⟨i, hf, -⟩
  exact absurd hf (by decide)

/-- An ILLEGAL latch and an END latch in WB. -/
def illegalInWb : State := two.setLatch .wb { held .wb .halt with fields := { Fields.zero with op := 1, resv := 1 } }
def endInWb : State := two.setLatch .wb { held .wb .halt with pc := 4008 }

theorem witness_ClockCountsCyclesThatDoNotStop :
    two.CycleNext ∧ step two = .next (stepped two) ∧ (stepped two).runState = .running ∧
      endInWb.CycleNext ∧ step endInWb = .next (stepped endInWb) ∧ (stepped endInWb).runState = .stopped := by
  unfold State.CycleNext
  exact ⟨by decide, eq_next _ (by decide), by decide, by decide, eq_next _ (by decide), by decide⟩

theorem witness_IllegalWordInWritebackEndsTheRun :
    illegalInWb.CycleNext ∧ illegalInWb.L.wb.fresh .wb = true ∧ illegalInWb.content illegalInWb.L.wb = .illegal := by
  unfold State.CycleNext; decide

/-- HALT in WB in the cycle in which a load past the last cell is in MEM2 (program F5 of L2.7). -/
def haltBeforeBadLoad : State :=
  (inStage .wb .halt two).setLatch .mem2 { held .mem2 (.load 3 2 0) with memAddress := 0xFFFFFFFF }

theorem witness_HaltAndEndStopTheRun :
    (endInWb.CycleNext ∧ endInWb.L.wb.fresh .wb = true ∧ step endInWb = .next (stepped endInWb) ∧
      endInWb.content endInWb.L.wb = .endOfCode) ∧
    ((inStage .wb .halt two).CycleNext ∧ (inStage .wb .halt two).L.wb.fresh .wb = true ∧
      step (inStage .wb .halt two) = .next (stepped (inStage .wb .halt two)) ∧
      (inStage .wb .halt two).content (inStage .wb .halt two).L.wb = .instr .halt) ∧
    (haltBeforeBadLoad.CycleNext ∧ haltBeforeBadLoad.L.wb.fresh .wb = true ∧
      step haltBeforeBadLoad = .next (stepped haltBeforeBadLoad) ∧
      haltBeforeBadLoad.content haltBeforeBadLoad.L.wb = .instr .halt ∧
      LaterUnitFaults haltBeforeBadLoad (stepped haltBeforeBadLoad)) := by
  unfold State.CycleNext LaterUnitFaults Holds
  exact ⟨⟨by decide, by decide, eq_next _ (by decide), by decide⟩,
    ⟨by decide, by decide, eq_next _ (by decide), by decide⟩,
    ⟨by decide, by decide, eq_next _ (by decide), by decide,
      .inl ⟨.load 3 2 0, _, by decide, .inl rfl, rfl, by decide, by decide⟩⟩⟩

theorem witness_PcChangesInThreeWays :
    (step two = .next (stepped two) ∧ (stepped two).pc ≠ two.pc ∧ (stepped two).pc = two.pc + 4) ∧
    (step bzTaken = .next (stepped bzTaken) ∧ (stepped bzTaken).pc ≠ bzTaken.pc ∧
      (stepped bzTaken).pc = bzTaken.L.ex2.pc + 8) ∧
    (step haltInDrf = .next (stepped haltInDrf) ∧ (stepped haltInDrf).pc ≠ haltInDrf.pc ∧
      (stepped haltInDrf).pc = BitVec.ofNat 32 haltInDrf.endAddr) :=
  ⟨⟨eq_next _ (by decide), by decide, by decide⟩, ⟨eq_next _ (by decide), by decide, by decide⟩,
    ⟨eq_next _ (by decide), by decide, by decide⟩⟩

end Sys2Proof.Tests
end

/-!
# The stage units and the pipeline rules of spec 40_pipeline.md

What each stage unit can do with the content of its latch is said once, unit by unit, in the spec-side terms of the
statements (`afterDrf`, `afterEx1`, ...). What a unit leaves alone, and the pipeline statements, follow from that.
-/

namespace Sys2Proof.Machine

open Sys2Proof.Claims

/-! ### Occupants -/

section Occupants

variable (s : State)

/-- Which stages hold a BZ, BNZ or JUMP, in the terms of R112 and R118. -/
theorem branchyAt_iff (u : Stage) :
    s.branchyAt u = true ↔ (s.S0.get u).fresh u = true ∧ (s.cls (s.S0.get u)).branchy = true := by
  by_cases hf : (s.S0.get u).fresh u = true <;> simp [State.branchyAt, State.occCls, State.occ, hf]

/-- The arithmetic class is the only one that writes CC (R74). -/
theorem writesCc_iff (c : InsnClass) : c.writesCc = true ↔ c = .arith := by
  cases c <;> decide

/-- Which stages hold an arithmetic instruction, in the terms of R117. -/
theorem arithAt_iff (u : Stage) :
    s.arithAt u = true ↔ (s.S0.get u).fresh u = true ∧ s.cls (s.S0.get u) = .arith := by
  by_cases hf : (s.S0.get u).fresh u = true <;> simp [State.arithAt, State.occCls, State.occ, hf, writesCc_iff]

theorem contended_iff (u v : Stage) : Contended s u v ↔ (s.branchyAt u || s.branchyAt v) = true := by
  simp only [Contended, Bool.or_eq_true, branchyAt_iff]

/-- The condition-code lookahead of DRF sees the arithmetic instructions of R117 and nothing else. -/
theorem ccHazard_iff : s.ccHazard = true ↔ ArithmeticAhead s := by
  simp only [State.ccHazard, Bool.or_eq_true, arithAt_iff, ArithmeticAhead]
  constructor
  · rintro (((h | h) | h) | h)
    · exact ⟨.ex1, .inl rfl, h⟩
    · exact ⟨.ex2, .inr (.inl rfl), h⟩
    · exact ⟨.mem1, .inr (.inr (.inl rfl)), h⟩
    · exact ⟨.mem2, .inr (.inr (.inr rfl)), h⟩
  · rintro ⟨u, rfl | rfl | rfl | rfl, h⟩
    · exact .inl (.inl (.inl h))
    · exact .inl (.inl (.inr h))
    · exact .inl (.inr h)
    · exact .inr h

/-- Who the occupants of the stages are depends on the snapshot and the launch data alone. -/
theorem branchyAt_congr {s t : State} (hl : t.launch = s.launch) (hi : t.imem = s.imem) (hS : t.S0 = s.S0) (u : Stage) :
    t.branchyAt u = s.branchyAt u := by
  rw [Bool.eq_iff_iff, branchyAt_iff, branchyAt_iff, hS, cls_congr hl hi]

end Occupants

/-! ### What each unit can do -/

section Units

variable (c : Content) (s : State)

/-- Every content is fetched alike (R71, R122). -/
theorem performContent_f : performContent c { s with unit := .f } = .next ({ s with unit := .f } : State).fetch := by
  cases c with
  | instr i => cases i <;> rfl
  | illegal => rfl
  | endOfCode => rfl

/-- Fetch in the terms of the statements: a stall, a raise or the latch handed on (R121 to R124). -/
theorem fetch_in_f_cases :
    ({ s with unit := .f } : State).fetch =
        { s with unit := .f, L := { s.L with f := { s.L.f with isEmpty := true } } } ∨
      ({ s with unit := .f } : State).fetch =
        afterRaise { s with L := { s.L with f := { s.L.f with isEmpty := true } } } .f (.fetchOutOfRange s.pc) ∨
      ∃ f, ({ s with unit := .f } : State).fetch = afterFetch s f := by
  obtain ⟨-, h⟩ | ⟨-, -, h⟩ | ⟨-, -, h⟩ := fetch_cases { s with unit := .f }
  · exact .inl h
  · exact .inr (.inl h)
  · exact .inr (.inr ⟨_, h⟩)

theorem drfStall_in_drf : ({ s with unit := .drf } : State).drfStall = afterDrfStall s := rfl

theorem drfAdvance_in_drf (n : Sources) :
    ({ s with unit := .drf } : State).drfAdvance n = afterDrf s (s.readSources n s.L.drf) := rfl

theorem drfOnCc_in_drf :
    ({ s with unit := .drf } : State).drfOnCc = if s.ccHazard then afterDrfStall s else afterDrf s s.L.drf := rfl

/-- The weak HALT check (R118). -/
theorem drfHalt_in_drf :
    ({ s with unit := .drf } : State).drfHalt =
      if s.branchyAt .ex1 || s.branchyAt .ex2 then afterDrf s s.L.drf
      else afterDrf { s with haltSev := s.haltSev.max .weak } s.L.drf :=
  apply_ite (fun t : State => t.drfAdvance Sources.none) _ _ _

/-- DRF held back by source registers, in the terms of the statements (R116, R119, R120). -/
theorem drfOnSources_in_drf_cases (n : Sources) :
    ({ s with unit := .drf } : State).drfOnSources n = afterDrfStall s ∨
      ∃ l, ({ s with unit := .drf } : State).drfOnSources n = afterDrf s l := by
  obtain ⟨-, h⟩ | ⟨-, h⟩ := drfOnSources_cases { s with unit := .drf } n
  · exact .inr ⟨_, h.trans (drfAdvance_in_drf s n)⟩
  · exact .inl (h.trans (drfStall_in_drf s))

/-- DRF held back by the condition-code lookahead (R117, R119, R120). -/
theorem drfOnCc_in_drf_cases :
    ({ s with unit := .drf } : State).drfOnCc = afterDrfStall s ∨
      ∃ l, ({ s with unit := .drf } : State).drfOnCc = afterDrf s l := by
  cases h : s.ccHazard
  · exact .inr ⟨s.L.drf, by simp [drfOnCc_in_drf, h]⟩
  · exact .inl (by simp [drfOnCc_in_drf, h])

/-- With anything but a HALT, DRF stalls or hands a content on (R115, R119, R120). -/
theorem performContent_drf_cases (hc : c ≠ .instr .halt) :
    ∃ t, performContent c { s with unit := .drf } = .next t ∧ (t = afterDrfStall s ∨ ∃ l, t = afterDrf s l) := by
  cases c with
  | instr i =>
    cases i with
    | halt => exact absurd rfl hc
    | bz imm | bnz imm => exact ⟨_, rfl, drfOnCc_in_drf_cases s⟩
    | _ => exact ⟨_, rfl, drfOnSources_in_drf_cases s _⟩
  | illegal | endOfCode => exact ⟨_, rfl, drfOnSources_in_drf_cases s _⟩

/-- EX1 changes validity bits and hands a content on (R113, R114). -/
theorem performContent_ex1_cases :
    ∃ v l, performContent c { s with unit := .ex1 } = .next (afterEx1 { s with valid := v } l) := by
  cases c with
  | instr i => cases i <;> exact ⟨_, _, rfl⟩
  | illegal | endOfCode => exact ⟨s.valid, s.L.ex1, rfl⟩

/-- The strong HALT check (R112). -/
theorem ex2Halt_in_ex2 :
    ({ s with unit := .ex2 } : State).ex2Halt =
      if s.branchyAt .ex1 || s.branchyAt .drf then afterEx2 s
      else afterEx2 { s with haltSev := s.haltSev.max .strong } :=
  apply_ite State.ex2Pass _ _ _

/-- EX2 of a BZ or BNZ: not taken, or a flush to its target (R111). -/
theorem ex2Branch_in_ex2_cases (expects imm : Word) :
    ({ s with unit := .ex2 } : State).ex2Branch expects imm = afterEx2 s ∨
      ∃ a, ({ s with unit := .ex2 } : State).ex2Branch expects imm =
        afterEx2 { s with flushPending := true, flushTarget := a } := by
  obtain ⟨-, h⟩ | ⟨-, h⟩ := ex2Branch_cases { s with unit := .ex2 } expects imm
  · exact .inr ⟨_, h⟩
  · exact .inl h

/-- EX2 hands its content on; a branch or jump may ask for a flush first, and a HALT for a halt (R111, R112). -/
theorem performContent_ex2_cases :
    performContent c { s with unit := .ex2 } = .next (afterEx2 s) ∨
      (c.cls.branchy = true ∧ ∃ a, performContent c { s with unit := .ex2 } =
        .next (afterEx2 { s with flushPending := true, flushTarget := a })) ∨
      ∃ h, performContent c { s with unit := .ex2 } = .next (afterEx2 { s with haltSev := h }) := by
  cases c with
  | instr i =>
    cases i with
    | bz imm | bnz imm =>
      obtain h | ⟨a, h⟩ := ex2Branch_in_ex2_cases s _ imm
      · exact .inl (congrArg _ h)
      · exact .inr (.inl ⟨rfl, a, congrArg _ h⟩)
    | jump rs1 imm => exact .inr (.inl ⟨rfl, _, rfl⟩)
    | halt =>
      cases h : s.branchyAt .ex1 || s.branchyAt .drf
      · exact .inr (.inr ⟨s.haltSev.max .strong, congrArg _ ((ex2Halt_in_ex2 s).trans (by simp [h]))⟩)
      · exact .inl (congrArg _ ((ex2Halt_in_ex2 s).trans (by simp [h])))
    | _ => exact .inl rfl
  | illegal | endOfCode => exact .inl rfl

/-- MEM1 hands on whatever it holds (R110). -/
theorem performContent_mem1 : performContent c { s with unit := .mem1 } = .next (afterMem1 s) := by
  cases c with
  | instr i => cases i <;> rfl
  | illegal | endOfCode => rfl

/-- MEM2 of a load or a store, in the terms of the statements: the access and a content handed on, or a raise (R109,
R202). -/
theorem mem2Load_in_mem2_cases :
    (∃ d l, ({ s with unit := .mem2 } : State).mem2Load = afterMem2 { s with dmem := d } l) ∨
      ∃ r, ({ s with unit := .mem2 } : State).mem2Load = afterRaise s .mem2 r := by
  obtain ⟨-, h⟩ | ⟨-, h⟩ := mem2Load_cases { s with unit := .mem2 }
  · exact .inl ⟨s.dmem, _, h⟩
  · exact .inr ⟨_, h⟩

theorem mem2Store_in_mem2_cases :
    (∃ d l, ({ s with unit := .mem2 } : State).mem2Store = afterMem2 { s with dmem := d } l) ∨
      ∃ r, ({ s with unit := .mem2 } : State).mem2Store = afterRaise s .mem2 r := by
  obtain ⟨-, h⟩ | ⟨-, h⟩ := mem2Store_cases { s with unit := .mem2 }
  · exact .inl ⟨_, _, h⟩
  · exact .inr ⟨_, h⟩

/-- MEM2 accesses the data memory and hands a content on, or raises (R109, R202). -/
theorem performContent_mem2_cases :
    ∃ t, performContent c { s with unit := .mem2 } = .next t ∧
      ((∃ d l, t = afterMem2 { s with dmem := d } l) ∨ ∃ r, t = afterRaise s .mem2 r) := by
  cases c with
  | instr i =>
    cases i with
    | load | ldr => exact ⟨_, rfl, mem2Load_in_mem2_cases s⟩
    | store | str => exact ⟨_, rfl, mem2Store_in_mem2_cases s⟩
    | _ => exact ⟨_, rfl, .inl ⟨s.dmem, s.L.mem2, rfl⟩⟩
  | illegal | endOfCode => exact ⟨_, rfl, .inl ⟨s.dmem, s.L.mem2, rfl⟩⟩

/-- WB of an instruction writes registers, validity bits or the stop request, and counts it (R105, R106, R108). -/
theorem performContent_wb_instr (i : Instr) :
    ∃ x v q, performContent (.instr i) { s with unit := .wb } =
      .next (afterWb { s with x := x, valid := v, stopReq := q }) := by
  cases i with
  | halt => exact ⟨s.x, s.valid, .halt, rfl⟩
  | _ => exact ⟨_, _, s.stopReq, rfl⟩

/-- WB of an ILLEGAL latch raises (R203). -/
theorem performContent_wb_illegal :
    performContent .illegal { s with unit := .wb } =
      .next (afterRaise s .wb (.illegalInstruction s.L.wb.pc s.L.wb.fields.op s.L.wb.fields.resv)) := rfl

/-- WB of an END latch requests the drain and counts nothing (R107). -/
theorem performContent_wb_endOfCode :
    performContent .endOfCode { s with unit := .wb } =
      .next { s with unit := .wb, stopReq := .drain, L := { s.L with wb := { s.L.wb with done := some .wb } } } := rfl

end Units

/-! ### The units within a cycle -/

section WithinACycle

variable {s t : State} {u : Stage}

/-- An outcome has one next state. -/
theorem next_unique {o : Host.Outcome State Fault Refusal} (hs : o = .next s) (ht : o = .next t) : s = t :=
  Host.Outcome.next.inj (hs.symm.trans ht)

theorem stopped_or_running (s : State) : s.runState = .stopped ∨ s.runState = .running := by
  cases s.runState with
  | stopped => exact .inl rfl
  | running => exact .inr rfl

/-- What a unit from DRF to WB can have done: nothing after a raise, its display flag alone, or its content performed
(R102, R104, R133, R204). -/
theorem runUnit_latch_inv (hu : u ≠ .f) (h : runUnit u s = .next t) :
    t = s ∨ t = ({ s with unit := u } : State).setIsEmpty u true ∨
      ((s.S0.get u).fresh u = true ∧
        performContent (s.content (s.latch u)) { s.setIsEmpty u false with unit := u } = .next t) := by
  obtain hr | hr := stopped_or_running s
  · exact .inl (next_unique h (runUnit_stopped u s hr))
  · obtain ⟨hf, hp⟩ | ⟨-, hp⟩ := runUnit_latch_cases u s hu hr
    · exact .inr (.inr ⟨hf, hp.symm.trans h⟩)
    · exact .inr (.inl (next_unique h hp))

/-- What the Fetch unit can have done: nothing after a raise, or its content performed. -/
theorem runUnit_f_inv (h : runUnit .f s = .next t) :
    t = s ∨ performContent s.fetchedContent { s with unit := .f } = .next t := by
  obtain hr | hr := stopped_or_running s
  · exact .inl (next_unique h (runUnit_stopped .f s hr))
  · exact .inr ((runUnit_fetch s hr).symm.trans h)

/-- What the unit `u` leaves as it was: always the launch data, the program and the snapshot; the counter but for WB;
the flush request but for EX2; the halt request but for EX2, and for DRF unless a branch or jump is in EX2 (R118); EX2's
latch but for EX1 and EX2. -/
structure UnitFrame (u : Stage) (s t : State) : Prop where
  launch : t.launch = s.launch
  imem : t.imem = s.imem
  S0 : t.S0 = s.S0
  insCompleted : u ≠ .wb → t.insCompleted = s.insCompleted
  flushPending : u ≠ .ex2 → t.flushPending = s.flushPending
  haltSev : u ≠ .ex2 → (u = .drf → s.branchyAt .ex2 = true) → t.haltSev = s.haltSev
  ex2Latch : u ≠ .ex1 → u ≠ .ex2 → t.L.ex2 = s.L.ex2

namespace UnitFrame

theorem refl (u : Stage) (s : State) : UnitFrame u s s := by
  constructor <;> intros <;> rfl

theorem branchyAt (h : UnitFrame u s t) (v : Stage) : t.branchyAt v = s.branchyAt v :=
  branchyAt_congr h.launch h.imem h.S0 v

theorem trans {m : State} (h : UnitFrame u s m) (k : UnitFrame u m t) : UnitFrame u s t where
  launch := k.launch.trans h.launch
  imem := k.imem.trans h.imem
  S0 := k.S0.trans h.S0
  insCompleted hu := (k.insCompleted hu).trans (h.insCompleted hu)
  flushPending hu := (k.flushPending hu).trans (h.flushPending hu)
  haltSev hu hb := (k.haltSev hu fun hd => (h.branchyAt .ex2).trans (hb hd)).trans (h.haltSev hu hb)
  ex2Latch h1 h2 := (k.ex2Latch h1 h2).trans (h.ex2Latch h1 h2)

/-- A display flag is in no frame (R133). -/
theorem setIsEmpty (u : Stage) (s : State) (b : Bool) :
    UnitFrame u s (({ s with unit := u } : State).setIsEmpty u b) := by
  constructor
  case ex2Latch =>
    intro _ h2
    exact (latch_setIsEmpty { s with unit := u } u .ex2 b).trans (if_neg h2)
  all_goals intros; rfl

end UnitFrame

/-- HALT's check in DRF raises nothing when a branch or jump is in EX2 (R118). -/
theorem drfHalt_frame (s : State) : UnitFrame .drf s ({ s with unit := .drf } : State).drfHalt := by
  rw [drfHalt_in_drf]
  cases hb : s.branchyAt .ex1 || s.branchyAt .ex2
  · have hex2 : s.branchyAt .ex2 = false := (Bool.or_eq_false_iff.mp hb).2
    constructor <;> simp [afterDrf, hex2]
  · constructor <;> simp [afterDrf]

/-- Performing a content keeps the frame of its unit. -/
theorem performContent_frame (c : Content) (h : performContent c { s with unit := u } = .next t) : UnitFrame u s t := by
  cases u with
  | f =>
    obtain rfl := next_unique (performContent_f c s) h
    obtain hf | hf | ⟨f, hf⟩ := fetch_in_f_cases s <;> rw [hf] <;> constructor <;> simp [afterRaise, afterFetch]
  | drf =>
    by_cases hc : c = .instr .halt
    · subst hc
      obtain rfl := Host.Outcome.next.inj h
      exact drfHalt_frame s
    · obtain ⟨m, hm, rfl | ⟨l, rfl⟩⟩ := performContent_drf_cases c s hc <;>
        obtain rfl := next_unique hm h <;> constructor <;> simp [afterDrfStall, afterDrf]
  | ex1 =>
    obtain ⟨v, l, hm⟩ := performContent_ex1_cases c s
    obtain rfl := next_unique hm h
    constructor <;> simp [afterEx1]
  | ex2 =>
    obtain hm | ⟨-, a, hm⟩ | ⟨q, hm⟩ := performContent_ex2_cases c s <;>
      obtain rfl := next_unique hm h <;> constructor <;> simp [afterEx2]
  | mem1 =>
    obtain rfl := next_unique (performContent_mem1 c s) h
    constructor <;> simp [afterMem1]
  | mem2 =>
    obtain ⟨m, hm, ⟨d, l, rfl⟩ | ⟨r, rfl⟩⟩ := performContent_mem2_cases c s <;>
      obtain rfl := next_unique hm h <;> constructor <;> simp [afterMem2, afterRaise]
  | wb =>
    cases c with
    | instr i =>
      obtain ⟨x, v, q, hm⟩ := performContent_wb_instr s i
      obtain rfl := next_unique hm h
      constructor <;> simp [afterWb]
    | illegal =>
      obtain rfl := next_unique (performContent_wb_illegal s) h
      constructor <;> simp [afterRaise]
    | endOfCode =>
      obtain rfl := next_unique (performContent_wb_endOfCode s) h
      constructor <;> simp

/-- Every unit of a cycle keeps its frame, whether it performs or not. -/
theorem runUnit_frame (h : runUnit u s = .next t) : UnitFrame u s t := by
  by_cases hu : u = .f
  · subst hu
    obtain rfl | hp := runUnit_f_inv h
    · exact .refl .f t
    · exact performContent_frame _ hp
  · obtain rfl | rfl | ⟨-, hp⟩ := runUnit_latch_inv hu h
    · exact .refl u t
    · exact .setIsEmpty u s true
    · exact (UnitFrame.setIsEmpty u s false).trans (performContent_frame _ hp)

/-- What each unit of a list keeps, the list keeps. -/
theorem runUnits_invariant {I : State → Prop} {us : List Stage}
    (hI : ∀ u ∈ us, ∀ m n : State, runUnit u m = .next n → I m → I n) (h : runUnits us s = .next t) (hs : I s) :
    I t := by
  induction us generalizing s with
  | nil => exact Host.Outcome.next.inj h ▸ hs
  | cons u us ih =>
    obtain ⟨m, hm, hr⟩ := andThen_eq_next h
    exact ih (fun v hv => hI v (.tail u hv)) hr (hI u (.head us) s m hm hs)

/-- A list of units runs part after part. -/
theorem runUnits_append_eq_next {us vs : List Stage} (h : runUnits (us ++ vs) s = .next t) :
    ∃ m, runUnits us s = .next m ∧ runUnits vs m = .next t := by
  induction us generalizing s with
  | nil => exact ⟨s, rfl, h⟩
  | cons u us ih =>
    obtain ⟨n, hn, hr⟩ := andThen_eq_next h
    obtain ⟨m, hm, ht⟩ := ih hr
    exact ⟨m, by simp [runUnits, hn, hm], ht⟩

end WithinACycle

/-! ### Fetch, DRF, EX2 and MEM1 -/

/-- The store holds a word at every address of the program (R25, R50). -/
theorem imem_getElem?_eq_imemAt (s : State) (a : Word) (hb : s.launch.codeBase ≤ a.toNat) (ha : a.toNat < s.endAddr) :
    s.imem[(a.toNat - s.launch.codeBase) / 4]? = some (s.imemAt a) := by
  have hk : (a.toNat - s.launch.codeBase) / 4 < s.imem.length := by
    simp only [State.endAddr, State.progLen, insnStride] at ha
    omega
  simp [State.imemAt, insnStride, List.getElem?_eq_getElem hk]

/-- The latch Fetch builds inside the program (R122). -/
theorem fetchedLatch_in_program (s : State) (ha : s.pc.toNat < s.endAddr) :
    s.fetchedLatch = { Latch.reset with
      pc := s.pc, fields := splitWord (s.imemAt s.pc), isEmpty := false, done := some .f } := by
  rw [State.fetchedLatch, if_pos ha]

/-- Fetch inside the program (R121, R122, R124). -/
theorem fetch_in_program (s : State) (hst : s.L.drf.stalled = false) (hb : s.launch.codeBase ≤ s.pc.toNat)
    (hm : (s.pc.toNat - s.launch.codeBase) % 4 = 0) (ha : s.pc.toNat < s.endAddr) :
    ({ s with unit := .f } : State).fetch = afterFetch s (splitWord (s.imemAt s.pc)) := by
  have hok : s.codeAddrOk s.pc = true := by simp [State.codeAddrOk, insnStride, hb, hm]
  obtain ⟨h, -⟩ | ⟨-, h, -⟩ | ⟨-, -, h⟩ := fetch_cases { s with unit := .f }
  · exact absurd (hst.symm.trans h) (by decide)
  · exact absurd (hok.symm.trans h) (by decide)
  · rw [h, fetchedLatch_in_program { s with unit := .f } ha]
    rfl

/-- Settles O6: every content is fetched alike, and the address check passes. -/
theorem fetchHandsTheWordToDecode : Obligations.FetchHandsTheWordToDecode := by
  unfold Obligations.FetchHandsTheWordToDecode
  intro i c s hst hb hm ha
  have hf := fetch_in_program s hst hb hm ha
  exact ⟨s.imemAt s.pc, imem_getElem?_eq_imemAt s s.pc hb ha,
    (performContent_f (.instr i) s).trans (congrArg _ hf), (performContent_f c s).trans (congrArg _ hf)⟩

/-- Settles O12: DRF's lookahead is the arithmetic ahead, and a BZ or BNZ asks for no register. -/
theorem branchesWaitForArithmeticAhead : Obligations.BranchesWaitForArithmeticAhead := by
  unfold Obligations.BranchesWaitForArithmeticAhead
  intro imm s
  have hdrf := drfOnCc_in_drf s
  constructor
  · intro ha
    rw [if_pos ((ccHazard_iff s).mpr ha)] at hdrf
    exact ⟨congrArg _ hdrf, congrArg _ hdrf⟩
  · intro ha
    rw [if_neg (ha ∘ (ccHazard_iff s).mp)] at hdrf
    exact ⟨congrArg _ hdrf, congrArg _ hdrf⟩

/-- Raising the weak halt keeps a strong one (R31). -/
theorem max_weak (h : HaltSev) : h.max .weak = if h = .strong then .strong else .weak := by
  cases h <;> rfl

/-- The strong halt is the largest severity (R31). -/
theorem max_strong (h : HaltSev) : h.max .strong = .strong := by
  cases h <;> rfl

/-- Settles O13: the weak HALT check of DRF. -/
theorem haltInDecodeRaisesTheWeakHalt : Obligations.HaltInDecodeRaisesTheWeakHalt := by
  unfold Obligations.HaltInDecodeRaisesTheWeakHalt
  intro s
  have hdrf := drfHalt_in_drf s
  rw [max_weak] at hdrf
  constructor
  · intro hc
    rw [contended_iff] at hc
    exact congrArg _ (hdrf.trans (if_neg hc))
  · intro hc
    rw [contended_iff] at hc
    exact congrArg _ (hdrf.trans (if_pos hc))

/-- Settles O18: the strong HALT check of EX2. -/
theorem haltInExecute2RaisesTheStrongHalt : Obligations.HaltInExecute2RaisesTheStrongHalt := by
  unfold Obligations.HaltInExecute2RaisesTheStrongHalt
  intro s
  have hex2 := ex2Halt_in_ex2 s
  rw [max_strong] at hex2
  constructor
  · intro hc
    rw [contended_iff] at hc
    exact congrArg _ (hex2.trans (if_neg hc))
  · intro hc
    rw [contended_iff] at hc
    exact congrArg _ (hex2.trans (if_pos hc))

/-- Settles O19: no content has work in MEM1. -/
theorem memory1OnlyPassesOn : Obligations.Memory1OnlyPassesOn := by
  unfold Obligations.Memory1OnlyPassesOn
  exact performContent_mem1

/-! ### A flush and a halt exclude each other -/

section FlushAndHalt

variable {s t : State}

/-- What holds until EX2 runs: no signal is raised, and EX2's latch is the one the snapshot shows. -/
def BeforeEx2 (s : State) : Prop := s.flushPending = false ∧ s.haltSev = .none ∧ s.L.ex2 = s.S0.ex2

/-- What holds once EX2 has run: a flush is asked for by the branch or jump in EX2 and stands beside no halt. -/
def FlushIsFromEx2 (s : State) : Prop := s.flushPending = true → s.haltSev = .none ∧ s.branchyAt .ex2 = true

theorem beginCycle_beforeEx2 (s : State) : BeforeEx2 s.beginCycle := ⟨rfl, rfl, rfl⟩

/-- The units below EX2 raise no signal. -/
theorem UnitFrame.beforeEx2 {u : Stage} (hu : u ∈ [Stage.wb, .mem2, .mem1]) (h : UnitFrame u s t) (hs : BeforeEx2 s) :
    BeforeEx2 t := by
  obtain ⟨hflush, hhalt, hlatch⟩ := hs
  have h1 : u ≠ .ex1 := ne_of_mem_of_not_mem hu (by decide)
  have h2 : u ≠ .ex2 := ne_of_mem_of_not_mem hu (by decide)
  have hd : u ≠ .drf := ne_of_mem_of_not_mem hu (by decide)
  refine ⟨(h.flushPending h2).trans hflush, (h.haltSev h2 (absurd · hd)).trans hhalt, ?_⟩
  rw [h.ex2Latch h1 h2, h.S0, hlatch]

/-- EX2 asks for a flush only when its occupant is a branch or jump, and then for no halt (R111, R112). -/
theorem runUnit_ex2_flushIsFromEx2 (h : runUnit .ex2 s = .next t) (hs : BeforeEx2 s) : FlushIsFromEx2 t := by
  intro hflush
  have hframe := runUnit_frame h
  obtain ⟨hf, hh, hl⟩ := hs
  obtain rfl | rfl | ⟨hfresh, hp⟩ := runUnit_latch_inv (by decide) h
  · exact absurd (hf.symm.trans hflush) (by decide)
  · exact absurd (hf.symm.trans hflush) (by decide)
  · obtain hm | ⟨hb, a, hm⟩ | ⟨q, hm⟩ :=
        performContent_ex2_cases (s.content (s.latch .ex2)) (s.setIsEmpty .ex2 false) <;>
      obtain rfl := next_unique hm hp
    · exact absurd (hf.symm.trans hflush) (by decide)
    · refine ⟨hh, (hframe.branchyAt .ex2).trans ((branchyAt_iff s .ex2).mpr ⟨hfresh, ?_⟩)⟩
      rw [show s.S0.get .ex2 = s.latch .ex2 from hl.symm]
      exact hb
    · exact absurd (hf.symm.trans hflush) (by decide)

/-- No unit after EX2 asks for a flush, and none raises a halt with a branch or jump in EX2. -/
theorem UnitFrame.flushIsFromEx2 {u : Stage} (hu : u ≠ .ex2) (h : UnitFrame u s t) (hs : FlushIsFromEx2 s) :
    FlushIsFromEx2 t := by
  intro hflush
  obtain ⟨hhalt, hb⟩ := hs ((h.flushPending hu).symm.trans hflush)
  exact ⟨(h.haltSev hu fun _ => hb).trans hhalt, (h.branchyAt .ex2).trans hb⟩

/-- Settles O48: only a branch or jump in EX2 asks for a flush; EX2 then holds no HALT, and the check of R118 keeps a
HALT in DRF from raising its halt. -/
theorem flushAndHaltExcludeEachOther : Obligations.FlushAndHaltExcludeEachOther := by
  unfold Obligations.FlushAndHaltExcludeEachOther
  intro s t h hflush
  obtain ⟨m, hbelow, h⟩ := runUnits_append_eq_next (us := [.wb, .mem2, .mem1]) h
  obtain ⟨n, hex2, habove⟩ := andThen_eq_next h
  have hm : BeforeEx2 m :=
    runUnits_invariant (fun _ hu _ _ hrun => (runUnit_frame hrun).beforeEx2 hu) hbelow (beginCycle_beforeEx2 s)
  have hn : FlushIsFromEx2 n := runUnit_ex2_flushIsFromEx2 hex2 hm
  have ht : FlushIsFromEx2 t :=
    runUnits_invariant (fun _ hu _ _ hrun =>
      (runUnit_frame hrun).flushIsFromEx2 (ne_of_mem_of_not_mem hu (by decide))) habove hn
  exact (ht hflush).1

end FlushAndHalt

/-! ### Counting instructions -/

section Counting

variable {s t : State}

/-- The units other than WB count nothing. -/
theorem runUnits_insCompleted {us : List Stage} (hus : .wb ∉ us) (h : runUnits us s = .next t) :
    t.insCompleted = s.insCompleted :=
  runUnits_invariant (I := fun m => m.insCompleted = s.insCompleted)
    (fun _ hu _ _ hrun hm => ((runUnit_frame hrun).insCompleted (ne_of_mem_of_not_mem hu hus)).trans hm) h rfl

@[simp] theorem restoreValid_insCompleted (s : State) : s.restoreValid.insCompleted = s.insCompleted := by
  obtain h | ⟨l, -, -, -, h⟩ := restoreValid_cases s <;> rw [h]
  rfl

@[simp] theorem reconcile_insCompleted (s : State) : s.reconcile.insCompleted = s.insCompleted := by
  have hflush : s.applyFlush.insCompleted = s.insCompleted := by
    cases h : s.flushPending <;> simp [State.applyFlush, h]
  have hhalt (m : State) : m.applyHalt.insCompleted = m.insCompleted := by
    cases h : m.haltSev <;> simp [State.applyHalt, h]
  exact (hhalt _).trans hflush

@[simp] theorem endCycle_insCompleted (s : State) : s.endCycle.insCompleted = s.insCompleted := by
  obtain ⟨-, h⟩ | ⟨-, h⟩ | ⟨-, h⟩ := endCycle_cases s <;> rw [h]

/-- Reconciliation and the end of the cycle count no instruction. -/
theorem finishCycle_insCompleted (s : State) : s.finishCycle.insCompleted = s.insCompleted := by
  cases h : s.runState <;> simp [State.finishCycle, h]

/-- A step of a machine whose next step is a cycle is that cycle: its units, then its end (R100, R130). -/
theorem step_of_cycleNext (hc : s.CycleNext) (h : step s = .next t) :
    ∃ m, runUnits unitOrder s.beginCycle = .next m ∧ t = m.finishCycle := by
  obtain ⟨hr, -, hclock⟩ := hc
  obtain ⟨hstop, -⟩ | ⟨-, -, hfault⟩ | ⟨-, -, -, hfault⟩ | ⟨-, -, hbound, -⟩ | ⟨-, -, -, hcycle⟩ := step_cases s
  · exact absurd (hr.symm.trans hstop) (by decide)
  · cases hfault.symm.trans h
  · cases hfault.symm.trans h
  · exact absurd hclock (Nat.not_lt.mpr hbound)
  · obtain ⟨m, hm, ht⟩ := andThen_eq_next (hcycle.symm.trans h)
    exact ⟨m, hm, (Host.Outcome.next.inj ht).symm⟩

/-- WB, the first unit of a cycle, counts its occupant when that is an instruction, and nothing else (R108). -/
theorem runUnit_wb_insCompleted (hr : s.runState = .running) (h : runUnit .wb s.beginCycle = .next t) :
    ((∃ i, Holds s .wb i) → t.insCompleted = s.insCompleted + 1) ∧
      ((¬ ∃ i, Holds s .wb i) → t.insCompleted = s.insCompleted) := by
  obtain ⟨hf, hp⟩ | ⟨hf, hp⟩ := runUnit_latch_cases .wb s.beginCycle (by decide) hr
  · have hp := hp.symm.trans h
    have hcontent : s.beginCycle.content (s.beginCycle.latch .wb) = s.content (s.latch .wb) := rfl
    rw [hcontent] at hp
    cases hc : s.content (s.latch .wb) with
    | instr i =>
      obtain ⟨x, v, q, hm⟩ := performContent_wb_instr (s.beginCycle.setIsEmpty .wb false) i
      rw [hc] at hp
      obtain rfl := next_unique hm hp
      exact ⟨fun _ => rfl, fun hn => absurd ⟨i, hf, hc⟩ hn⟩
    | illegal | endOfCode =>
      rw [hc] at hp
      obtain rfl := Host.Outcome.next.inj hp
      exact ⟨fun ⟨i, _, hi⟩ => (nomatch hc.symm.trans hi), fun _ => rfl⟩
  · obtain rfl := next_unique hp h
    exact ⟨fun ⟨i, hi, _⟩ => absurd (hf.symm.trans hi) (by decide), fun _ => rfl⟩

/-- Settles O55: WB counts, and nothing after it in the cycle does. -/
theorem writebackCountsEveryInstruction : Obligations.WritebackCountsEveryInstruction := by
  unfold Obligations.WritebackCountsEveryInstruction
  intro s t hc h
  obtain ⟨m, hunits, rfl⟩ := step_of_cycleNext hc h
  obtain ⟨n, hwb, hrest⟩ := andThen_eq_next hunits
  have hcount : m.finishCycle.insCompleted = n.insCompleted :=
    (finishCycle_insCompleted m).trans (runUnits_insCompleted (by decide) hrest)
  rw [hcount]
  exact runUnit_wb_insCompleted hc.1 hwb

end Counting

end Sys2Proof.Machine

/-!
# The condition code (spec 41_arithmetic.md R151)

The register file is written in WB alone, and there CC by the arithmetic instructions alone.
-/

namespace Sys2Proof.Machine

section ConditionCode

variable {s t : State}

/-- The six arithmetic instructions share one meaning, up to the operator EX1 applies (R150). -/
theorem exec_of_arith {i : Instr} {rd : Reg} (hcls : i.cls = .arith) (hdest : i.dest = some rd) :
    ∃ op rs1 rs2, ∀ s, exec i s = .next (arithUnit op rd rs1 rs2 s) := by
  cases i with
  | add | sub | mul | and | or | exOr =>
    obtain rfl := Option.some.inj hdest
    exact ⟨_, _, _, fun _ => rfl⟩
  | _ => cases hcls

/-- The weak HALT check writes no register (R118). -/
theorem drfHalt_x (s : State) : ({ s with unit := .drf } : State).drfHalt.x = s.x := by
  rw [drfHalt_in_drf]
  split <;> rfl

/-- No unit but WB writes the register file (R105). -/
theorem performContent_x (c : Content) {u : Stage} (hu : u ≠ .wb)
    (h : performContent c { s with unit := u } = .next t) : t.x = s.x := by
  cases u with
  | f =>
    obtain rfl := next_unique (performContent_f c s) h
    obtain hf | hf | ⟨f, hf⟩ := fetch_in_f_cases s <;> rw [hf] <;> rfl
  | drf =>
    by_cases hc : c = .instr .halt
    · subst hc
      obtain rfl := Host.Outcome.next.inj h
      exact drfHalt_x s
    · obtain ⟨m, hm, rfl | ⟨l, rfl⟩⟩ := performContent_drf_cases c s hc <;>
        obtain rfl := next_unique hm h <;> rfl
  | ex1 =>
    obtain ⟨v, l, hm⟩ := performContent_ex1_cases c s
    obtain rfl := next_unique hm h
    rfl
  | ex2 =>
    obtain hm | ⟨-, a, hm⟩ | ⟨q, hm⟩ := performContent_ex2_cases c s <;>
      obtain rfl := next_unique hm h <;> rfl
  | mem1 =>
    obtain rfl := next_unique (performContent_mem1 c s) h
    rfl
  | mem2 =>
    obtain ⟨m, hm, ⟨d, l, rfl⟩ | ⟨r, rfl⟩⟩ := performContent_mem2_cases c s <;>
      obtain rfl := next_unique hm h <;> rfl
  | wb => exact absurd rfl hu

/-- WB of MOVC, LOAD and LDR keeps CC: no register field names it (R21, R105). -/
@[simp] theorem wbResult_cc (s : State) (rd : Reg) : (s.wbResult rd).cc = s.cc :=
  cc_writeX_reg (s.writeV (regSlot rd) true) rd s.L.wb.buffer

/-- WB of what is not arithmetic keeps CC (R105). -/
theorem exec_in_wb_cc {i : Instr} (hcls : i.cls ≠ .arith) (h : exec i { s with unit := .wb } = .next t) :
    t.cc = s.cc := by
  cases i with
  | add | sub | mul | and | or | exOr => exact absurd rfl hcls
  | movc rd | load rd | ldr rd =>
    obtain rfl := Host.Outcome.next.inj h
    exact wbResult_cc { s with unit := .wb } rd
  | _ =>
    obtain rfl := Host.Outcome.next.inj h
    rfl

end ConditionCode

/-- Settles O25: the arithmetic instructions share their WB; any other unit leaves the register file alone, and WB of any
other instruction leaves CC alone. -/
theorem onlyArithmeticWritebackWritesCc : Obligations.OnlyArithmeticWritebackWritesCc := by
  unfold Obligations.OnlyArithmeticWritebackWritesCc
  constructor
  · intro i rd s hcls hdest
    obtain ⟨op, rs1, rs2, hexec⟩ := exec_of_arith hcls hdest
    exact hexec { s with unit := .wb }
  · intro i s t h hother
    by_cases hu : s.unit = .wb
    · have hcls : i.cls ≠ .arith := hother.resolve_right (not_not_intro hu)
      have hs : s = { s with unit := .wb } := by rw [← hu]
      exact exec_in_wb_cc hcls (hs ▸ h)
    · have hx : t.x = s.x := performContent_x (.instr i) hu h
      rw [State.readX, State.readX, hx]

end Sys2Proof.Machine

/-!
# The instruction word (spec 30_encoding.md)

The decoder reads the opcode, the reserved field and the fields that the class uses, and nothing else.
-/

namespace Sys2Proof

open Sys2Proof.Claims

/-- Every instruction has an assigned opcode (R73). -/
theorem opcodeOf_assigned (i : Instr) : 1 ≤ (opcodeOf i).toNat ∧ (opcodeOf i).toNat ≤ 15 := by
  cases i <;> simp [opcodeOf]

/-- The decoder accepts every assigned opcode with a zero reserved field (R76, R77). -/
theorem exists_decodeFields {f : Fields} (hresv : f.resv = 0) (hlow : 1 ≤ f.op.toNat) (hhigh : f.op.toNat ≤ 15) :
    ∃ i, decodeFields f = .ok i := by
  rw [decodeFields, if_neg (not_not.mpr hresv)]
  interval_cases f.op.toNat <;> exact ⟨_, rfl⟩

/-- What an accepted word says of its fields (R73, R75, R76). -/
theorem fields_of_decodeFields {f : Fields} {i : Instr} (h : decodeFields f = .ok i) :
    f.resv = 0 ∧ f.op = opcodeOf i ∧ UsedFieldsHold f i := by
  unfold decodeFields at h
  split at h
  · cases h
  · next hresv =>
    refine ⟨not_not.mp hresv, ?_⟩
    split at h
    case h_16 => cases h
    all_goals
      next hop =>
        obtain rfl := Except.ok.inj h
        exact ⟨BitVec.eq_of_toNat_eq hop, by simp [UsedFieldsHold]⟩

/-- The used fields decide the instruction (R73, R75). -/
theorem decodeFields_of_fields {f : Fields} {i : Instr} (hresv : f.resv = 0) (hop : f.op = opcodeOf i)
    (hused : UsedFieldsHold f i) : decodeFields f = .ok i := by
  cases i <;> simp_all [decodeFields, opcodeOf, UsedFieldsHold]

/-- Settles O2: the two directions above. -/
theorem decoderReadsExactlyTheUsedFields : Obligations.DecoderReadsExactlyTheUsedFields := by
  unfold Obligations.DecoderReadsExactlyTheUsedFields
  exact fun f i => ⟨fields_of_decodeFields, fun ⟨hresv, hop, hused⟩ => decodeFields_of_fields hresv hop hused⟩

/-- The encoder writes the opcode and the used fields, and 0 in the reserved field (R73, R75). -/
theorem encodeFields_fields (i : Instr) :
    (encodeFields i).resv = 0 ∧ (encodeFields i).op = opcodeOf i ∧ UsedFieldsHold (encodeFields i) i := by
  cases i <;> simp [encodeFields, opcodeOf, UsedFieldsHold, Fields.zero]

/-- Settles O1: the split of a joined word gives its fields back, and the encoder's fields decode to the instruction. -/
theorem decodeOfEncodeIsTheInstruction : Obligations.DecodeOfEncodeIsTheInstruction := by
  unfold Obligations.DecodeOfEncodeIsTheInstruction
  intro i
  obtain ⟨hresv, hop, hused⟩ := encodeFields_fields i
  rw [decodeWord, encode, splitWord_joinFields]
  exact decodeFields_of_fields hresv hop hused

/-- The two checks on a word are checks of its fields. -/
theorem wordOk_iff (w : InsnWord) :
    wordOk w = true ↔ (1 ≤ (splitWord w).op.toNat ∧ (splitWord w).op.toNat ≤ 15) ∧ (splitWord w).resv = 0 := by
  simp [wordOk, opcodeAssigned, reservedClear, splitWord]

/-- Settles O3: an accepted word has the opcode of its instruction, and every assigned opcode is accepted. -/
theorem decoderAcceptsExactlyTheWellFormedWords : Obligations.DecoderAcceptsExactlyTheWellFormedWords := by
  unfold Obligations.DecoderAcceptsExactlyTheWellFormedWords
  intro w
  rw [wordOk_iff]
  constructor
  · rintro ⟨i, h⟩
    obtain ⟨hresv, hop, -⟩ := fields_of_decodeFields h
    exact ⟨hop ▸ opcodeOf_assigned i, hresv⟩
  · rintro ⟨⟨hlow, hhigh⟩, hresv⟩
    exact exists_decodeFields hresv hlow hhigh

/-- Settles O4: each word of the table is decoded by evaluation. -/
theorem vectorWordsDecode : Obligations.VectorWordsDecode := by
  unfold Obligations.VectorWordsDecode
  exact ⟨rfl, rfl, rfl, rfl, rfl, rfl, rfl, rfl⟩

/-- A class that writes `rd` is that of an instruction with a destination (R74). -/
theorem writesRd_iff_dest (i : Instr) : i.cls.writesRd = true ↔ ∃ rd, i.dest = some rd := by
  cases i <;> simp [Instr.cls, InsnClass.writesRd, Instr.dest]

/-- The destination of an instruction is the `rd` field of its word (R75). -/
theorem rd_eq_dest {f : Fields} {i : Instr} {rd : Reg} (h : decodeFields f = .ok i) (hd : i.dest = some rd) :
    f.rd = rd := by
  obtain ⟨-, -, hused⟩ := fields_of_decodeFields h
  cases i <;> simp_all [UsedFieldsHold, Instr.dest]

end Sys2Proof

/-!
# What a stage does with one instruction (spec 40_pipeline.md sections 3 to 8)

The lemmas on each unit above settle the statements about `exec` and `performContent` in one stage.
-/

namespace Sys2Proof.Machine

open Sys2Proof.Claims

/-! ### Fetch at the edges of the program -/

theorem codeAddrOk_iff (s : State) (a : Word) :
    s.codeAddrOk a = true ↔ s.launch.codeBase ≤ a.toNat ∧ (a.toNat - s.launch.codeBase) % 4 = 0 := by
  rw [State.codeAddrOk, Bool.and_eq_true, decide_eq_true_iff, decide_eq_true_iff, insnStride]

/-- The address check looks at the launch data alone (R124). -/
theorem codeAddrOk_congr {s t : State} (h : t.launch = s.launch) (a : Word) : t.codeAddrOk a = s.codeAddrOk a := by
  rw [State.codeAddrOk, State.codeAddrOk, h]

/-- Fetch at a legal address hands its latch on (R121, R122). -/
theorem fetch_of_codeAddrOk {s : State} (hst : s.L.drf.stalled = false) (hok : s.codeAddrOk s.pc = true) :
    ({ s with unit := .f } : State).fetch = afterFetch s s.fetchedLatch.fields := by
  simp only [State.fetch, hst, Bool.false_eq_true, if_false]
  exact if_pos hok

/-- Fetch at an illegal address raises (R124, R201). -/
theorem fetch_of_not_codeAddrOk {s : State} (hst : s.L.drf.stalled = false) (hok : s.codeAddrOk s.pc = false) :
    ({ s with unit := .f } : State).fetch =
      afterRaise { s with L := { s.L with f := { s.L.f with isEmpty := true } } } .f (.fetchOutOfRange s.pc) := by
  simp only [State.fetch, hst, Bool.false_eq_true, if_false]
  exact if_neg (Bool.eq_false_iff.mp hok)

/-- Fetch behind a stalled DRF (R121). -/
theorem fetch_of_stalled {s : State} (hst : s.L.drf.stalled = true) :
    ({ s with unit := .f } : State).fetch =
      { s with unit := .f, L := { s.L with f := { s.L.f with isEmpty := true } } } := if_pos hst

/-- Past the end of the program Fetch reads no word (R123). -/
theorem fetchedLatch_fields_past_end {s : State} (hend : s.endAddr ≤ s.pc.toNat) :
    s.fetchedLatch.fields = Fields.zero := if_neg (Nat.not_lt.mpr hend)

/-- Settles O7: the address is legal, and no word is read there. -/
theorem fetchPastTheEndFormsAnEndLatch : Obligations.FetchPastTheEndFormsAnEndLatch := by
  unfold Obligations.FetchPastTheEndFormsAnEndLatch
  intro c s hst hb hm hend
  have hok : s.codeAddrOk s.pc = true := (codeAddrOk_iff s s.pc).mpr ⟨hb, hm⟩
  rw [performContent_f, fetch_of_codeAddrOk hst hok, fetchedLatch_fields_past_end hend]
  rfl

/-- Settles O8: the address check fails. -/
theorem fetchFromAnIllegalAddressEndsTheRun : Obligations.FetchFromAnIllegalAddressEndsTheRun := by
  unfold Obligations.FetchFromAnIllegalAddressEndsTheRun
  intro c s hst hbad
  have hok : s.codeAddrOk s.pc = false := by
    rw [Bool.eq_false_iff, ne_eq, codeAddrOk_iff]
    omega
  rw [performContent_f, fetch_of_not_codeAddrOk hst hok]

/-- Settles O9: a stalled DRF is looked at before the address. -/
theorem fetchStallsBehindAStalledDecode : Obligations.FetchStallsBehindAStalledDecode := by
  unfold Obligations.FetchStallsBehindAStalledDecode
  intro c s hst
  rw [performContent_f, fetch_of_stalled hst]

/-! ### Decode / register read -/

/-- The registers that `Sources` names, in field order. -/
def Sources.toList (n : Sources) : List Reg := n.rs1.toList ++ n.rs2.toList ++ n.rs3.toList

theorem sourceReady_iff (s : State) (o : Option Reg) : s.sourceReady o = true ↔ AllValid s o.toList := by
  cases o <;> simp [State.sourceReady, AllValid]

/-- DRF's check of the sources is that of R116. -/
theorem sourcesReady_iff (s : State) (n : Sources) : s.sourcesReady n = true ↔ AllValid s n.toList := by
  simp only [State.sourcesReady, Bool.and_eq_true, sourceReady_iff, Sources.toList, AllValid, List.forall_mem_append]

/-- DRF held back by source registers, in the terms of the statements (R116, R119, R120). -/
theorem drfOnSources_in_drf (s : State) (n : Sources) :
    ({ s with unit := .drf } : State).drfOnSources n =
      if s.sourcesReady n then afterDrf s (s.readSources n s.L.drf) else afterDrfStall s := rfl

/-- DRF of every instruction but BZ, BNZ and HALT is governed by the sources of R74 (R115, R116, R120). -/
theorem exec_in_drf {i : Instr} (hbranch : i.cls ≠ .branch) (hhalt : i ≠ .halt) :
    ∃ n : Sources, (∀ s : State, exec i { s with unit := .drf } = .next (({ s with unit := .drf } : State).drfOnSources n)) ∧
      n.toList = sourcesOf i ∧ ∀ (s : State) (l : Latch), s.readSources n l =
        { l with
          rs1Value := ((sourcesOf i)[0]?.map fun r => s.readX (regSlot r)).getD l.rs1Value
          rs2Value := ((sourcesOf i)[1]?.map fun r => s.readX (regSlot r)).getD l.rs2Value
          rs3Value := ((sourcesOf i)[2]?.map fun r => s.readX (regSlot r)).getD l.rs3Value } := by
  cases i with
  | bz | bnz => exact absurd rfl hbranch
  | halt => exact absurd rfl hhalt
  | _ => exact ⟨_, fun _ => rfl, rfl, fun _ _ => rfl⟩

/-- Settles O10: BZ, BNZ and HALT have no source to be INVALID; the others fail DRF's check. -/
theorem decodeStallsOnAnInvalidSource : Obligations.DecodeStallsOnAnInvalidSource := by
  unfold Obligations.DecodeStallsOnAnInvalidSource
  rintro i s ⟨r, hr, hinvalid⟩
  have hbranch : i.cls ≠ .branch := by rintro hc; cases i <;> simp_all [Instr.cls, sourcesOf]
  have hhalt : i ≠ .halt := by rintro rfl; simp [sourcesOf] at hr
  obtain ⟨n, hexec, hlist, -⟩ := exec_in_drf hbranch hhalt
  have hready : s.sourcesReady n ≠ true := by
    rw [ne_eq, sourcesReady_iff, hlist]
    exact fun hall => absurd ((hall r hr).symm.trans hinvalid) (by decide)
  rw [hexec, drfOnSources_in_drf, if_neg hready]

/-- Settles O11: DRF's check passes, and the sources are read by field. -/
theorem decodeReadsValidSourcesAndAdvances : Obligations.DecodeReadsValidSourcesAndAdvances := by
  unfold Obligations.DecodeReadsValidSourcesAndAdvances
  intro i s hbranch hhalt hall
  obtain ⟨n, hexec, hlist, hread⟩ := exec_in_drf hbranch hhalt
  have hready : s.sourcesReady n = true := (sourcesReady_iff s n).mpr (hlist ▸ hall)
  rw [hexec, drfOnSources_in_drf, if_pos hready, hread]

/-! ### Execute 1 -/

/-- `+` on words is the sum of the integers modulo 2^32 (R9). -/
theorem word_add_eq (a b : Word) : a + b = BitVec.ofNat 32 (a.toNat + b.toNat) :=
  BitVec.eq_of_toNat_eq (by simp)

/-- `*` on words is the product of the integers modulo 2^32 (R9). -/
theorem word_mul_eq (a b : Word) : a * b = BitVec.ofNat 32 (a.toNat * b.toNat) :=
  BitVec.eq_of_toNat_eq (by simp)

/-- `-` on words is the difference of the integers modulo 2^32 (R9). -/
theorem word_sub_eq (a b : Word) : a - b = BitVec.ofInt 32 (a.toNat - b.toNat) := by
  apply BitVec.eq_of_toNat_eq
  rw [BitVec.toNat_sub, BitVec.toNat_ofInt]
  have := a.isLt
  have := b.isLt
  omega

/-- Settles O14: the three sums and products modulo 2^32, the three bitwise operators bit by bit. -/
theorem arithmeticResultsInExecute1 : Obligations.ArithmeticResultsInExecute1 := by
  unfold Obligations.ArithmeticResultsInExecute1
  rintro rd rs1 rs2 s a b rfl rfl
  rw [← word_add_eq, ← word_sub_eq, ← word_mul_eq]
  exact ⟨rfl, rfl, rfl, ⟨_, fun k => BitVec.getLsbD_and, rfl⟩, ⟨_, fun k => BitVec.getLsbD_or, rfl⟩,
    ⟨_, fun k => BitVec.getLsbD_xor, rfl⟩⟩

/-- Settles O15: each row of the EX1 table. -/
theorem movesAddressesAndTargetsInExecute1 : Obligations.MovesAddressesAndTargetsInExecute1 := by
  unfold Obligations.MovesAddressesAndTargetsInExecute1
  intro r r1 r2 imm s
  simp only [← word_add_eq]
  exact ⟨rfl, rfl, rfl, rfl, rfl, rfl, rfl, rfl, rfl⟩

/-! ### Execute 2 -/

/-- EX2 of a BZ or BNZ, in the terms of the statements (R111). -/
theorem ex2Branch_in_ex2 (s : State) (expects imm : Word) :
    ({ s with unit := .ex2 } : State).ex2Branch expects imm =
      if s.readX ccSlot = expects then afterEx2 { s with flushPending := true, flushTarget := s.L.ex2.pc + imm }
      else afterEx2 s :=
  apply_ite State.ex2Pass _ _ _

/-- Settles O16: the two branches and what each expects of CC. -/
theorem branchesResolveInExecute2 : Obligations.BranchesResolveInExecute2 := by
  unfold Obligations.BranchesResolveInExecute2
  rintro imm s target rfl
  rw [← word_add_eq]
  have hbz := ex2Branch_in_ex2 s bzExpects imm
  have hbnz := ex2Branch_in_ex2 s bnzExpects imm
  exact ⟨fun h => congrArg _ (hbz.trans (if_pos h)), fun h => congrArg _ (hbz.trans (if_neg h)),
    fun h => congrArg _ (hbnz.trans (if_pos h)), fun h => congrArg _ (hbnz.trans (if_neg h))⟩

/-- Settles O17: EX2 of a JUMP asks for the flush and passes on. -/
theorem jumpsResolveInExecute2 : Obligations.JumpsResolveInExecute2 := by
  unfold Obligations.JumpsResolveInExecute2
  intros
  rfl

/-! ### Contents without work in a stage -/

/-- EX2 passes on what transfers no control (R111). -/
theorem performContent_ex2_pass {c : Content} (hbranch : c.cls ≠ .branch) (hjump : c.cls ≠ .jump)
    (hhalt : c.cls ≠ .halt) (s : State) : performContent c { s with unit := .ex2 } = .next (afterEx2 s) := by
  cases c with
  | instr i =>
    cases i with
    | bz | bnz => exact absurd rfl hbranch
    | jump => exact absurd rfl hjump
    | halt => exact absurd rfl hhalt
    | _ => rfl
  | illegal | endOfCode => rfl

/-- MEM2 passes on what is no load and no store (R109). -/
theorem performContent_mem2_pass {c : Content} (hload : c.cls ≠ .load) (hldr : c.cls ≠ .ldr) (hstore : c.cls ≠ .store)
    (hstr : c.cls ≠ .str) (s : State) :
    performContent c { s with unit := .mem2 } = .next (afterMem2 s s.L.mem2) := by
  cases c with
  | instr i =>
    cases i with
    | load => exact absurd rfl hload
    | ldr => exact absurd rfl hldr
    | store => exact absurd rfl hstore
    | str => exact absurd rfl hstr
    | _ => rfl
  | illegal | endOfCode => rfl

/-- ILLEGAL and END contents have no work in DRF and EX1 (R77, R78). -/
theorem performContent_no_instr {c : Content} (hc : c.cls = .illegal ∨ c.cls = .endOfCode) (s : State) :
    performContent c { s with unit := .drf } = .next (afterDrf s s.L.drf) ∧
      performContent c { s with unit := .ex1 } = .next (afterEx1 s s.L.ex1) := by
  cases c with
  | instr i => cases i <;> simp [Content.cls, Instr.cls] at hc
  | illegal | endOfCode => exact ⟨rfl, rfl⟩

/-- Settles O20: the three lemmas above, of every content and of the instructions among them. -/
theorem stagesPassOnOtherInstructions : Obligations.StagesPassOnOtherInstructions := by
  unfold Obligations.StagesPassOnOtherInstructions
  refine ⟨fun c s => ⟨?_, ?_, ?_⟩, fun i s => ⟨?_, ?_⟩⟩
  · exact fun hb hj hh => performContent_ex2_pass hb hj hh s
  · exact fun hl hr hs ht => performContent_mem2_pass hl hr hs ht s
  · exact fun hc => performContent_no_instr hc s
  · exact fun hb hj hh => performContent_ex2_pass (c := .instr i) hb hj hh s
  · exact fun hl hr hs ht => performContent_mem2_pass (c := .instr i) hl hr hs ht s

/-! ### Memory 2 -/

section Memory2

variable {s : State}

/-- MEM2 of a load in range (R109). -/
theorem mem2Load_in_range (ha : s.L.mem2.memAddress.toNat < s.launch.dmemCells) :
    ({ s with unit := .mem2 } : State).mem2Load =
      afterMem2 s { s.L.mem2 with buffer := s.cell s.L.mem2.memAddress } :=
  if_pos (decide_eq_true ha)

/-- MEM2 of a store in range (R109). -/
theorem mem2Store_in_range (ha : s.L.mem2.memAddress.toNat < s.launch.dmemCells) :
    ({ s with unit := .mem2 } : State).mem2Store =
      afterMem2 (s.setCell s.L.mem2.memAddress s.L.mem2.rs1Value) s.L.mem2 :=
  if_pos (decide_eq_true ha)

/-- MEM2 of a load past the last cell (R202). -/
theorem mem2Load_out_of_range (ha : s.launch.dmemCells ≤ s.L.mem2.memAddress.toNat) :
    ({ s with unit := .mem2 } : State).mem2Load =
      afterRaise s .mem2 (.dataOutOfRange s.L.mem2.pc s.L.mem2.memAddress) :=
  if_neg (decide_eq_true_iff.not.mpr (Nat.not_lt.mpr ha))

/-- MEM2 of a store past the last cell (R202). -/
theorem mem2Store_out_of_range (ha : s.launch.dmemCells ≤ s.L.mem2.memAddress.toNat) :
    ({ s with unit := .mem2 } : State).mem2Store =
      afterRaise s .mem2 (.dataOutOfRange s.L.mem2.pc s.L.mem2.memAddress) :=
  if_neg (decide_eq_true_iff.not.mpr (Nat.not_lt.mpr ha))

end Memory2

/-- Settles O21: both loads read their cell. -/
theorem loadsReadTheirCell : Obligations.LoadsReadTheirCell := by
  unfold Obligations.LoadsReadTheirCell
  intro rd rs1 rs2 imm s ha
  exact ⟨congrArg _ (mem2Load_in_range ha), congrArg _ (mem2Load_in_range ha)⟩

/-- Settles O22: a write to a canonical memory changes the cell written and no other. -/
theorem storesWriteTheirCellAndNoOther : Obligations.StoresWriteTheirCellAndNoOther := by
  unfold Obligations.StoresWriteTheirCellAndNoOther
  intro rs1 rs2 rs3 imm s hwf ha
  have hcell (b : Word) := cell_setCell s s.L.mem2.memAddress s.L.mem2.rs1Value b hwf
  refine ⟨afterMem2 (s.setCell s.L.mem2.memAddress s.L.mem2.rs1Value) s.L.mem2, congrArg _ (mem2Store_in_range ha),
    congrArg _ (mem2Store_in_range ha), rfl, (hcell _).trans (if_pos rfl), fun b hb => (hcell b).trans (if_neg hb.symm)⟩

/-- Settles O23: all four accesses check their range first. -/
theorem outOfRangeAccessEndsTheRun : Obligations.OutOfRangeAccessEndsTheRun := by
  unfold Obligations.OutOfRangeAccessEndsTheRun
  rintro r1 r2 r3 imm s t ha rfl
  exact ⟨congrArg _ (mem2Load_out_of_range ha), congrArg _ (mem2Store_out_of_range ha),
    congrArg _ (mem2Load_out_of_range ha), congrArg _ (mem2Store_out_of_range ha)⟩

/-! ### Writeback -/

/-- Settles O24: the three share one WB action. -/
theorem resultsCommitInWriteback : Obligations.ResultsCommitInWriteback := by
  unfold Obligations.ResultsCommitInWriteback
  rintro rd rs1 rs2 imm s t rfl
  exact ⟨rfl, rfl, rfl⟩

/-- Settles O26: the five share one WB action, which only counts. -/
theorem othersCommitNoRegister : Obligations.OthersCommitNoRegister := by
  unfold Obligations.OthersCommitNoRegister
  exact fun _ _ _ _ _ => ⟨rfl, rfl, rfl, rfl, rfl⟩

/-- Settles O27: WB of HALT asks for the stop and counts. -/
theorem haltInWritebackRequestsTheStop : Obligations.HaltInWritebackRequestsTheStop := by
  unfold Obligations.HaltInWritebackRequestsTheStop
  exact fun _ => rfl

end Sys2Proof.Machine

/-!
# What a stage changes and what it leaves unchanged

For each stage, one lemma says what performing any content can do there, with the state it leaves written out. The frame of
a list of stage units follows: which parts of the state none of them touches.
-/

namespace Sys2Proof.Machine

open Sys2Proof.Claims

/-! ### The shape of each stage -/

/-- Every content but a HALT keeps the halt signal in DRF; DRF changes no more of its latch than the source values (R118 to
R120). -/
theorem performContent_drf_shape (c : Content) (s : State) :
    performContent c { s with unit := .drf } = .next (afterDrfStall s) ∨
      ∃ q a b d, (c ≠ .instr .halt → q = s.haltSev) ∧ performContent c { s with unit := .drf } =
        .next (afterDrf { s with haltSev := q } { s.L.drf with rs1Value := a, rs2Value := b, rs3Value := d }) := by
  have hsources (n : Sources) : ({ s with unit := .drf } : State).drfOnSources n = afterDrfStall s ∨
      ∃ a b d, ({ s with unit := .drf } : State).drfOnSources n =
        afterDrf s { s.L.drf with rs1Value := a, rs2Value := b, rs3Value := d } := by
    rw [drfOnSources_in_drf]
    by_cases h : s.sourcesReady n = true
    · exact .inr ⟨_, _, _, if_pos h⟩
    · exact .inl (if_neg h)
  cases c with
  | instr i =>
    cases i with
    | halt =>
      refine .inr ?_
      cases h : s.branchyAt .ex1 || s.branchyAt .ex2
      · exact ⟨_, _, _, _, fun hc => absurd rfl hc,
          congrArg _ ((drfHalt_in_drf s).trans (if_neg (Bool.eq_false_iff.mp h)))⟩
      · exact ⟨s.haltSev, _, _, _, fun _ => rfl, congrArg _ ((drfHalt_in_drf s).trans (if_pos h))⟩
    | bz | bnz =>
      cases h : s.ccHazard
      · exact .inr ⟨s.haltSev, _, _, _, fun _ => rfl,
          congrArg _ ((drfOnCc_in_drf s).trans (if_neg (Bool.eq_false_iff.mp h)))⟩
      · exact .inl (congrArg _ ((drfOnCc_in_drf s).trans (if_pos h)))
    | _ =>
      obtain h | ⟨a, b, d, h⟩ := hsources _
      · exact .inl (congrArg _ h)
      · exact .inr ⟨s.haltSev, a, b, d, fun _ => rfl, congrArg _ h⟩
  | illegal | endOfCode =>
    obtain h | ⟨a, b, d, h⟩ := hsources Sources.none
    · exact .inl (congrArg _ h)
    · exact .inr ⟨s.haltSev, a, b, d, fun _ => rfl, congrArg _ h⟩

/-- The destination that a content writes, if it is an instruction with one. -/
def Content.dest : Content → Option Reg
  | .instr i => i.dest
  | .illegal => none
  | .endOfCode => none

/-- EX1 claims a destination (R113). -/
def State.claim (s : State) : Option Reg → State
  | none => s
  | some rd => s.writeV (regSlot rd) false

/-- EX1 claims the destination and computes a result or an address (R113, R114). -/
theorem performContent_ex1_shape (c : Content) (s : State) :
    ∃ b a, performContent c { s with unit := .ex1 } =
      .next (afterEx1 (s.claim c.dest) { s.L.ex1 with buffer := b, memAddress := a }) := by
  cases c with
  | instr i => cases i <;> exact ⟨_, _, rfl⟩
  | illegal | endOfCode => exact ⟨s.L.ex1.buffer, s.L.ex1.memAddress, rfl⟩

/-- The target to which a content in EX2 transfers control: a BZ or BNZ taken on CC, or a JUMP (R111). -/
def State.transferOf (s : State) : Content → Option Word
  | .instr (.bz imm) => if s.readX ccSlot = 1 then some (s.L.ex2.pc + imm) else none
  | .instr (.bnz imm) => if s.readX ccSlot = 0 then some (s.L.ex2.pc + imm) else none
  | .instr (.jump _ _) => some s.L.ex2.buffer
  | _ => none

/-- EX2 asks for the flush of a transfer, or raises the strong halt of an uncontended HALT, or only passes on (R111,
R112). -/
theorem performContent_ex2_shape (c : Content) (s : State) :
    (∃ a, s.transferOf c = some a ∧ c ≠ .instr .halt ∧
        performContent c { s with unit := .ex2 } = .next (afterEx2 (s.requestFlush a))) ∨
      (c = .instr .halt ∧ (s.branchyAt .ex1 || s.branchyAt .drf) = false ∧
        performContent c { s with unit := .ex2 } = .next (afterEx2 (s.raiseHalt .strong))) ∨
      (s.transferOf c = none ∧ (c = .instr .halt → (s.branchyAt .ex1 || s.branchyAt .drf) = true) ∧
        performContent c { s with unit := .ex2 } = .next (afterEx2 s)) := by
  cases c with
  | instr i =>
    cases i with
    | bz imm =>
      have hb := ex2Branch_in_ex2 s bzExpects imm
      by_cases hcc : s.readX ccSlot = 1
      · exact .inl ⟨_, if_pos hcc, by simp, congrArg _ (hb.trans (if_pos hcc))⟩
      · exact .inr (.inr ⟨if_neg hcc, by simp, congrArg _ (hb.trans (if_neg hcc))⟩)
    | bnz imm =>
      have hb := ex2Branch_in_ex2 s bnzExpects imm
      by_cases hcc : s.readX ccSlot = 0
      · exact .inl ⟨_, if_pos hcc, by simp, congrArg _ (hb.trans (if_pos hcc))⟩
      · exact .inr (.inr ⟨if_neg hcc, by simp, congrArg _ (hb.trans (if_neg hcc))⟩)
    | jump rs1 imm => exact .inl ⟨_, rfl, by simp, rfl⟩
    | halt =>
      have hh := ex2Halt_in_ex2 s
      cases hb : s.branchyAt .ex1 || s.branchyAt .drf
      · exact .inr (.inl ⟨rfl, rfl, congrArg _ (hh.trans (if_neg (Bool.eq_false_iff.mp hb)))⟩)
      · exact .inr (.inr ⟨rfl, fun _ => rfl, congrArg _ (hh.trans (if_pos hb))⟩)
    | _ => exact .inr (.inr ⟨rfl, by simp, rfl⟩)
  | illegal | endOfCode => exact .inr (.inr ⟨rfl, by simp, rfl⟩)

/-- The classes that access the data memory (R109). -/
def AccessesMemory (c : InsnClass) : Prop := c = .load ∨ c = .ldr ∨ c = .store ∨ c = .str

/-- MEM2 hands its content on, a loaded value in the buffer; or writes a store's cell first; or raises (R109, R202). -/
theorem performContent_mem2_shape (c : Content) (s : State) :
    (∃ b, performContent c { s with unit := .mem2 } = .next (afterMem2 s { s.L.mem2 with buffer := b })) ∨
      (∃ i, c = .instr i ∧ (i.cls = .store ∨ i.cls = .str) ∧ s.L.mem2.memAddress.toNat < s.launch.dmemCells ∧
        performContent c { s with unit := .mem2 } =
          .next (afterMem2 (s.setCell s.L.mem2.memAddress s.L.mem2.rs1Value) s.L.mem2)) ∨
      ∃ i, c = .instr i ∧ AccessesMemory i.cls ∧ s.launch.dmemCells ≤ s.L.mem2.memAddress.toNat ∧
        performContent c { s with unit := .mem2 } =
          .next (afterRaise s .mem2 (.dataOutOfRange s.L.mem2.pc s.L.mem2.memAddress)) := by
  by_cases hm : ∃ i, c = .instr i ∧ AccessesMemory i.cls
  · obtain ⟨i, rfl, hi⟩ := hm
    obtain ha | ha := Nat.lt_or_ge s.L.mem2.memAddress.toNat s.launch.dmemCells
    · cases i with
      | load | ldr => exact .inl ⟨_, congrArg _ (mem2Load_in_range ha)⟩
      | store => exact .inr (.inl ⟨_, rfl, .inl rfl, ha, congrArg _ (mem2Store_in_range ha)⟩)
      | str => exact .inr (.inl ⟨_, rfl, .inr rfl, ha, congrArg _ (mem2Store_in_range ha)⟩)
      | _ => simp [AccessesMemory, Instr.cls] at hi
    · cases i with
      | load | ldr => exact .inr (.inr ⟨_, rfl, hi, ha, congrArg _ (mem2Load_out_of_range ha)⟩)
      | store | str => exact .inr (.inr ⟨_, rfl, hi, ha, congrArg _ (mem2Store_out_of_range ha)⟩)
      | _ => simp [AccessesMemory, Instr.cls] at hi
  · refine .inl ⟨s.L.mem2.buffer, ?_⟩
    cases c with
    | instr i =>
      have hi : ¬ AccessesMemory i.cls := fun h => hm ⟨i, rfl, h⟩
      simp only [AccessesMemory, not_or] at hi
      obtain ⟨hl, hr, hs, ht⟩ := hi
      exact performContent_mem2_pass (c := .instr i) hl hr hs ht s
    | illegal | endOfCode => rfl

/-- What WB of an instruction writes to the registers and the validity bits: the destination, and CC after it for an
arithmetic instruction (R105, R151). -/
def State.wbFile (s : State) (i : Instr) : State :=
  match i.dest with
  | none => s
  | some rd =>
    let t := (s.writeV (regSlot rd) true).writeX (regSlot rd) s.L.wb.buffer
    if i.cls = .arith then t.writeX ccSlot (ccOf s.L.wb.buffer) else t

/-- WB of every instruction: the file written, HALT's stop request, the count (R105, R106, R108). -/
theorem exec_in_wb (i : Instr) (s : State) :
    exec i { s with unit := .wb } =
      .next (afterWb { s.wbFile i with stopReq := if i = .halt then .halt else s.stopReq }) := by
  cases i <;> rfl

/-- WB writes the validity bit of the destination alone (R105). -/
theorem wbFile_readV (s : State) (i : Instr) (j : Slot) :
    (s.wbFile i).readV j = if ∃ rd, i.dest = some rd ∧ regSlot rd = j then true else s.readV j := by
  unfold State.wbFile
  split
  · next hd => simp [hd]
  · next rd hd =>
    have h : ∀ t : State, (if i.cls = .arith then t.writeX ccSlot (ccOf s.L.wb.buffer) else t).readV j = t.readV j := by
      intro t
      split <;> rfl
    simp [hd, h, readV_writeV]

/-- WB writes the destination, and CC for an arithmetic instruction (R105, R151). -/
theorem wbFile_readX (s : State) (i : Instr) (j : Slot) :
    (s.wbFile i).readX j =
      if i.cls = .arith ∧ j = ccSlot then ccOf s.L.wb.buffer
      else if ∃ rd, i.dest = some rd ∧ regSlot rd = j then s.L.wb.buffer else s.readX j := by
  unfold State.wbFile
  split
  · next hd =>
    have hcls : i.cls ≠ .arith := by intro hc; cases i <;> simp_all [Instr.cls, Instr.dest]
    simp [hd, hcls]
  · next rd hd =>
    by_cases hc : i.cls = .arith
    · simp [hd, hc, readX_writeX, eq_comm]
    · simp [hd, hc, readX_writeX]

/-! ### The frame of the stage units -/

/-- The latches that the unit `u` may change: its own, the one downstream, and in DRF that of F (R103, R119, R120). -/
def Stage.touches (u v : Stage) : Bool := u == v || u.downstream == some v || (u == .drf && v == .f)

/-- What the stage units of `us` leave as it was. -/
structure UnitsFrame (us : List Stage) (s t : State) : Prop where
  launch : t.launch = s.launch
  imem : t.imem = s.imem
  S0 : t.S0 = s.S0
  clock : t.clock = s.clock
  pc : .f ∉ us → t.pc = s.pc
  x : .wb ∉ us → t.x = s.x
  valid : .ex1 ∉ us → .wb ∉ us → t.valid = s.valid
  dmem : .mem2 ∉ us → t.dmem = s.dmem
  flushPending : .ex2 ∉ us → t.flushPending = s.flushPending
  flushTarget : .ex2 ∉ us → t.flushTarget = s.flushTarget
  haltSev : .ex2 ∉ us → .drf ∉ us → t.haltSev = s.haltSev
  e1Done : .ex1 ∉ us → t.e1Done = s.e1Done
  stopReq : .wb ∉ us → t.stopReq = s.stopReq
  insCompleted : .wb ∉ us → t.insCompleted = s.insCompleted
  runState : .wb ∉ us → .mem2 ∉ us → .f ∉ us → t.runState = s.runState
  outcome : .wb ∉ us → .mem2 ∉ us → .f ∉ us → t.outcome = s.outcome
  latch : ∀ v, (∀ u ∈ us, u.touches v = false) → t.latch v = s.latch v

namespace UnitsFrame

variable {us vs : List Stage} {s m t : State}

theorem refl (us : List Stage) (s : State) : UnitsFrame us s s := by
  constructor <;> intros <;> rfl

theorem trans (h : UnitsFrame us s m) (k : UnitsFrame us m t) : UnitsFrame us s t where
  launch := k.launch.trans h.launch
  imem := k.imem.trans h.imem
  S0 := k.S0.trans h.S0
  clock := k.clock.trans h.clock
  pc a := (k.pc a).trans (h.pc a)
  x a := (k.x a).trans (h.x a)
  valid a b := (k.valid a b).trans (h.valid a b)
  dmem a := (k.dmem a).trans (h.dmem a)
  flushPending a := (k.flushPending a).trans (h.flushPending a)
  flushTarget a := (k.flushTarget a).trans (h.flushTarget a)
  haltSev a b := (k.haltSev a b).trans (h.haltSev a b)
  e1Done a := (k.e1Done a).trans (h.e1Done a)
  stopReq a := (k.stopReq a).trans (h.stopReq a)
  insCompleted a := (k.insCompleted a).trans (h.insCompleted a)
  runState a b c := (k.runState a b c).trans (h.runState a b c)
  outcome a b c := (k.outcome a b c).trans (h.outcome a b c)
  latch v hv := (k.latch v hv).trans (h.latch v hv)

/-- More units keep less. -/
theorem mono (hsub : us ⊆ vs) (h : UnitsFrame us s t) : UnitsFrame vs s t where
  launch := h.launch
  imem := h.imem
  S0 := h.S0
  clock := h.clock
  pc a := h.pc (a ∘ @hsub _)
  x a := h.x (a ∘ @hsub _)
  valid a b := h.valid (a ∘ @hsub _) (b ∘ @hsub _)
  dmem a := h.dmem (a ∘ @hsub _)
  flushPending a := h.flushPending (a ∘ @hsub _)
  flushTarget a := h.flushTarget (a ∘ @hsub _)
  haltSev a b := h.haltSev (a ∘ @hsub _) (b ∘ @hsub _)
  e1Done a := h.e1Done (a ∘ @hsub _)
  stopReq a := h.stopReq (a ∘ @hsub _)
  insCompleted a := h.insCompleted (a ∘ @hsub _)
  runState a b c := h.runState (a ∘ @hsub _) (b ∘ @hsub _) (c ∘ @hsub _)
  outcome a b c := h.outcome (a ∘ @hsub _) (b ∘ @hsub _) (c ∘ @hsub _)
  latch v hv := h.latch v fun u hu => hv u (hsub hu)

/-- A display flag is in no frame of its own unit (R133). -/
theorem setIsEmpty (u : Stage) (s : State) (b : Bool) :
    UnitsFrame [u] s (({ s with unit := u } : State).setIsEmpty u b) := by
  constructor
  case latch =>
    intro v hv
    have hne : u ≠ v := by rintro rfl; simp [Stage.touches] at hv
    exact (latch_setIsEmpty { s with unit := u } u v b).trans (if_neg hne)
  all_goals intros; rfl

end UnitsFrame

/-- The validity bits and `e1_done` are all that a claim can change. -/
theorem claim_eq (s : State) (o : Option Reg) : s.claim o = { s with valid := (s.claim o).valid } := by
  cases o <;> rfl

/-- The registers and the validity bits are all that WB of an instruction writes. -/
theorem wbFile_eq (s : State) (i : Instr) : s.wbFile i = { s with x := (s.wbFile i).x, valid := (s.wbFile i).valid } := by
  cases i <;> rfl

variable {s t : State}

/-- Latches outside the frame of a unit, one by one. -/
theorem untouched_latches {u : Stage}
    (h : (u.touches .f = false → t.L.f = s.L.f) ∧ (u.touches .drf = false → t.L.drf = s.L.drf) ∧
      (u.touches .ex1 = false → t.L.ex1 = s.L.ex1) ∧ (u.touches .ex2 = false → t.L.ex2 = s.L.ex2) ∧
      (u.touches .mem1 = false → t.L.mem1 = s.L.mem1) ∧ (u.touches .mem2 = false → t.L.mem2 = s.L.mem2) ∧
      (u.touches .wb = false → t.L.wb = s.L.wb)) :
    ∀ v, u.touches v = false → t.latch v = s.latch v := by
  obtain ⟨hf, hdrf, hex1, hex2, hmem1, hmem2, hwb⟩ := h
  intro v
  cases v <;> assumption

/-- What performing a content leaves as it was. -/
theorem performContent_unitsFrame {u : Stage} (c : Content) (h : performContent c { s with unit := u } = .next t) :
    UnitsFrame [u] s t := by
  cases u with
  | f =>
    obtain rfl := next_unique (performContent_f c s) h
    obtain hf | hf | ⟨f, hf⟩ := fetch_in_f_cases s <;> rw [hf] <;> constructor <;> simp [afterRaise, afterFetch]
    all_goals exact untouched_latches (by simp [Stage.touches, Stage.downstream])
  | drf =>
    obtain hm | ⟨q, a, b, d, -, hm⟩ := performContent_drf_shape c s <;>
      obtain rfl := next_unique hm h <;> constructor <;> simp [afterDrfStall, afterDrf]
    all_goals exact untouched_latches (by simp [Stage.touches, Stage.downstream])
  | ex1 =>
    obtain ⟨b, a, hm⟩ := performContent_ex1_shape c s
    rw [claim_eq] at hm
    obtain rfl := next_unique hm h
    constructor <;> simp [afterEx1]
    all_goals exact untouched_latches (by simp [Stage.touches, Stage.downstream])
  | ex2 =>
    obtain ⟨a, -, -, hm⟩ | ⟨-, -, hm⟩ | ⟨-, -, hm⟩ := performContent_ex2_shape c s <;>
      obtain rfl := next_unique hm h <;> constructor <;> simp [afterEx2]
    all_goals exact untouched_latches (by simp [Stage.touches, Stage.downstream])
  | mem1 =>
    obtain rfl := next_unique (performContent_mem1 c s) h
    constructor <;> simp [afterMem1]
    all_goals exact untouched_latches (by simp [Stage.touches, Stage.downstream])
  | mem2 =>
    obtain ⟨b, hm⟩ | ⟨i, -, -, -, hm⟩ | ⟨i, -, -, -, hm⟩ := performContent_mem2_shape c s <;>
      obtain rfl := next_unique hm h <;> constructor <;> simp [afterMem2, afterRaise]
    all_goals exact untouched_latches (by simp [Stage.touches, Stage.downstream])
  | wb =>
    cases c with
    | instr i =>
      have hm := exec_in_wb i s
      rw [wbFile_eq] at hm
      obtain rfl := next_unique hm h
      constructor <;> simp [afterWb]
      all_goals exact untouched_latches (by simp [Stage.touches, Stage.downstream])
    | illegal =>
      obtain rfl := next_unique (performContent_wb_illegal s) h
      constructor <;> simp [afterRaise]
      all_goals exact untouched_latches (by simp [Stage.touches, Stage.downstream])
    | endOfCode =>
      obtain rfl := next_unique (performContent_wb_endOfCode s) h
      constructor <;> simp
      all_goals exact untouched_latches (by simp [Stage.touches, Stage.downstream])

/-- Every unit of a cycle keeps its frame. -/
theorem runUnit_unitsFrame {u : Stage} (h : runUnit u s = .next t) : UnitsFrame [u] s t := by
  by_cases hu : u = .f
  · subst hu
    obtain rfl | hp := runUnit_f_inv h
    · exact .refl _ t
    · exact performContent_unitsFrame _ hp
  · obtain rfl | rfl | ⟨-, hp⟩ := runUnit_latch_inv hu h
    · exact .refl _ t
    · exact .setIsEmpty u s true
    · exact (UnitsFrame.setIsEmpty u s false).trans (performContent_unitsFrame _ hp)

/-- The units of a list together keep what none of them touches. -/
theorem runUnits_unitsFrame {us : List Stage} (h : runUnits us s = .next t) : UnitsFrame us s t :=
  runUnits_invariant (I := UnitsFrame us s)
    (fun u hu _ _ hrun hm => hm.trans ((runUnit_unitsFrame hrun).mono (by simpa using hu))) h (.refl us s)

end Sys2Proof.Machine

/-!
# What each instruction leaves unchanged, and its life (spec 30_encoding.md section 2, 40_pipeline.md section 2)
-/

namespace Sys2Proof.Machine

open Sys2Proof.Claims

section ExecFrame

variable {i : Instr} {u : Stage} {s t : State}

/-- The unit that acts stays the running one. -/
theorem performContent_unit (c : Content) (h : performContent c { s with unit := u } = .next t) : t.unit = u := by
  cases u with
  | f =>
    obtain rfl := next_unique (performContent_f c s) h
    obtain hf | hf | ⟨f, hf⟩ := fetch_in_f_cases s <;> rw [hf] <;> rfl
  | drf =>
    obtain hm | ⟨q, a, b, d, -, hm⟩ := performContent_drf_shape c s <;> obtain rfl := next_unique hm h <;> rfl
  | ex1 =>
    obtain ⟨b, a, hm⟩ := performContent_ex1_shape c s
    obtain rfl := next_unique hm h
    rfl
  | ex2 =>
    obtain ⟨a, -, -, hm⟩ | ⟨-, -, hm⟩ | ⟨-, -, hm⟩ := performContent_ex2_shape c s <;> obtain rfl := next_unique hm h <;> rfl
  | mem1 =>
    obtain rfl := next_unique (performContent_mem1 c s) h
    rfl
  | mem2 =>
    obtain ⟨b, hm⟩ | ⟨i, -, -, -, hm⟩ | ⟨i, -, -, -, hm⟩ := performContent_mem2_shape c s <;>
      obtain rfl := next_unique hm h <;> rfl
  | wb =>
    cases c with
    | instr i =>
      obtain rfl := next_unique (exec_in_wb i s) h
      rfl
    | illegal | endOfCode =>
      obtain rfl := Host.Outcome.next.inj h
      rfl

/-- Only a store in MEM2 changes the data memory, and there it writes the cell at `mem_address` (R26, R109). -/
theorem exec_dmem (h : exec i { s with unit := u } = .next t) :
    t.dmem = s.dmem ∨
      u = .mem2 ∧ (i.cls = .store ∨ i.cls = .str) ∧ t.dmem = (s.setCell s.L.mem2.memAddress s.L.mem2.rs1Value).dmem := by
  by_cases hu : u = .mem2
  · subst hu
    obtain ⟨b, hm⟩ | ⟨j, hj, hst, -, hm⟩ | ⟨j, -, -, -, hm⟩ := performContent_mem2_shape (.instr i) s <;>
      obtain rfl := next_unique hm h
    · exact .inl rfl
    · obtain rfl := Content.instr.inj hj
      exact .inr ⟨rfl, hst, rfl⟩
    · exact .inl rfl
  · exact .inl ((performContent_unitsFrame (.instr i) h).dmem (by simpa using Ne.symm hu))

/-- No slot but the destination, and CC for an arithmetic instruction, is written (R20, R21, R105). -/
theorem exec_readX (h : exec i { s with unit := u } = .next t) (j : Slot)
    (hdest : ∀ rd, i.dest = some rd → j ≠ regSlot rd) (hcc : i.cls = .arith → j ≠ ccSlot) : t.readX j = s.readX j := by
  by_cases hu : u = .wb
  · subst hu
    obtain rfl := next_unique (exec_in_wb i s) h
    have hcc : ¬ (i.cls = .arith ∧ j = ccSlot) := fun ⟨ha, hj⟩ => hcc ha hj
    have hdest : ¬ ∃ rd, i.dest = some rd ∧ regSlot rd = j := fun ⟨rd, hd, hj⟩ => hdest rd hd hj.symm
    exact (wbFile_readX s i j).trans ((if_neg hcc).trans (if_neg hdest))
  · have hx := (performContent_unitsFrame (.instr i) h).x (by simpa using Ne.symm hu)
    rw [State.readX, State.readX, hx]

theorem claim_readV (s : State) (o : Option Reg) (j : Slot) :
    (s.claim o).readV j = if ∃ rd, o = some rd ∧ regSlot rd = j then false else s.readV j := by
  cases o <;> simp [State.claim, readV_writeV]

/-- No validity bit but that of the destination is changed (R22, R105, R113). -/
theorem exec_readV (h : exec i { s with unit := u } = .next t) (j : Slot)
    (hdest : ∀ rd, i.dest = some rd → j ≠ regSlot rd) : t.readV j = s.readV j := by
  have hdest : ¬ ∃ rd, i.dest = some rd ∧ regSlot rd = j := fun ⟨rd, hd, hj⟩ => hdest rd hd hj.symm
  by_cases hex1 : u = .ex1
  · subst hex1
    obtain ⟨b, a, hm⟩ := performContent_ex1_shape (.instr i) s
    obtain rfl := next_unique hm h
    exact (claim_readV s i.dest j).trans (if_neg hdest)
  by_cases hwb : u = .wb
  · subst hwb
    obtain rfl := next_unique (exec_in_wb i s) h
    exact (wbFile_readV s i j).trans (if_neg hdest)
  · have hv := (performContent_unitsFrame (.instr i) h).valid (by simpa using Ne.symm hex1) (by simpa using Ne.symm hwb)
    rw [State.readV, State.readV, hv]

/-- An instruction stops the run in F and MEM2 alone (R201, R202). -/
theorem exec_run (h : exec i { s with unit := u } = .next t) (hf : u ≠ .f) (hmem2 : u ≠ .mem2) :
    t.runState = s.runState ∧ t.outcome = s.outcome := by
  by_cases hwb : u = .wb
  · subst hwb
    have hm := exec_in_wb i s
    rw [wbFile_eq] at hm
    obtain rfl := next_unique hm h
    exact ⟨rfl, rfl⟩
  · have hframe := performContent_unitsFrame (.instr i) h
    have hwb : Stage.wb ∉ [u] := by simpa using Ne.symm hwb
    have hmem2 : Stage.mem2 ∉ [u] := by simpa using Ne.symm hmem2
    have hf : Stage.f ∉ [u] := by simpa using Ne.symm hf
    exact ⟨hframe.runState hwb hmem2 hf, hframe.outcome hwb hmem2 hf⟩

/-- HALT alone raises a halt (R112, R118). -/
theorem performContent_haltSev {c : Content} (h : performContent c { s with unit := u } = .next t)
    (hc : c ≠ .instr .halt) : t.haltSev = s.haltSev := by
  by_cases hdrf : u = .drf
  · subst hdrf
    obtain hm | ⟨q, a, b, d, hq, hm⟩ := performContent_drf_shape c s <;> obtain rfl := next_unique hm h
    · rfl
    · exact hq hc
  by_cases hex2 : u = .ex2
  · subst hex2
    obtain ⟨a, -, -, hm⟩ | ⟨hhalt, -⟩ | ⟨-, -, hm⟩ := performContent_ex2_shape c s
    · obtain rfl := next_unique hm h
      rfl
    · exact absurd hhalt hc
    · obtain rfl := next_unique hm h
      rfl
  · exact (performContent_unitsFrame c h).haltSev (by simpa using Ne.symm hex2) (by simpa using Ne.symm hdrf)

/-- HALT alone requests the stop (R106). -/
theorem exec_stopReq (h : exec i { s with unit := u } = .next t) (hi : i ≠ .halt) : t.stopReq = s.stopReq := by
  by_cases hwb : u = .wb
  · subst hwb
    obtain rfl := next_unique (exec_in_wb i s) h
    exact if_neg hi
  · exact (performContent_unitsFrame (.instr i) h).stopReq (by simpa using Ne.symm hwb)

/-- A branch or jump in EX2 alone asks for a flush (R111). -/
theorem performContent_flush {c : Content} (h : performContent c { s with unit := u } = .next t)
    (hother : u ≠ .ex2 ∨ c.cls.branchy = false) :
    t.flushPending = s.flushPending ∧ t.flushTarget = s.flushTarget := by
  by_cases hu : u = .ex2
  · subst hu
    have hb : c.cls.branchy = false := hother.resolve_left (not_not_intro rfl)
    obtain hm | ⟨hc, -⟩ | ⟨q, hm⟩ := performContent_ex2_cases c s
    · obtain rfl := next_unique hm h
      exact ⟨rfl, rfl⟩
    · exact absurd (hb.symm.trans hc) (by decide)
    · obtain rfl := next_unique hm h
      exact ⟨rfl, rfl⟩
  · have hframe := performContent_unitsFrame c h
    exact ⟨hframe.flushPending (by simpa using Ne.symm hu), hframe.flushTarget (by simpa using Ne.symm hu)⟩

/-- BZ, BNZ and JUMP are the branchy classes (R74). -/
theorem branchy_eq_false {c : InsnClass} (hbranch : c ≠ .branch) (hjump : c ≠ .jump) : c.branchy = false := by
  cases c <;> simp_all [InsnClass.branchy]

end ExecFrame

/-- Settles O28: the frame of a unit, and what the lemmas above add for the destination, the store's cell and HALT. -/
theorem execFrame : Obligations.ExecFrame := by
  unfold Obligations.ExecFrame
  intro i s t hwf h
  have hframe : UnitsFrame [s.unit] s t := performContent_unitsFrame (.instr i) h
  have hout {v : Stage} (hv : s.unit ≠ v) : v ∉ [s.unit] := by simpa using hv.symm
  refine ⟨hframe.launch, hframe.imem, hframe.clock, hframe.S0, performContent_unit (.instr i) h,
    fun hf => hframe.pc (hout hf), ?dmem, ?cell, fun hwb => hframe.x (hout hwb), exec_readX h,
    fun hex1 hwb => hframe.valid (hout hex1) (hout hwb), exec_readV h, exec_run h,
    fun hi => ⟨performContent_haltSev (c := .instr i) h (by simpa using hi), exec_stopReq h hi⟩, ?flush,
    fun hwb => hframe.insCompleted (hout hwb), fun hex1 => hframe.e1Done (hout hex1), ?latch, ?latchF⟩
  case dmem =>
    intro hother
    obtain hsame | ⟨hu, hstore, -⟩ := exec_dmem h
    · exact hsame
    · obtain hne | ⟨hs, hr⟩ := hother
      · exact absurd hu hne
      · exact absurd hstore (not_or.mpr ⟨hs, hr⟩)
  case cell =>
    intro _ a ha
    obtain hsame | ⟨-, -, hwrite⟩ := exec_dmem h
    · rw [State.cell, State.cell, hsame]
    · have hcell := cell_setCell s s.L.mem2.memAddress s.L.mem2.rs1Value a hwf
      rw [if_neg ha.symm] at hcell
      rw [State.cell, hwrite]
      exact hcell
  case flush =>
    intro hother
    exact performContent_flush (c := .instr i) h (hother.imp id fun ⟨hb, hj⟩ => branchy_eq_false hb hj)
  case latch =>
    intro v hf hself hdown
    exact hframe.latch v (by simp [Stage.touches, hf, hself.symm, hdown])
  case latchF =>
    intro hf hdrf
    refine hframe.latch .f ?_
    cases hu : s.unit <;> simp_all [Stage.touches, Stage.downstream]

end Sys2Proof.Machine

/-!
# The life of one instruction (spec 41_arithmetic.md, 42_move.md, 43_load_store.md, 44_control.md)

The content of an instruction on its way through the stages, as functions of its latch; the lives are their compositions.
-/

namespace Sys2Proof.Machine

open Sys2Proof.Claims

/-! ### The content on its way -/

/-- The latch with the needed sources read (R120). -/
def State.readLatch (s : State) (i : Instr) (l : Latch) : Latch :=
  { l with
    rs1Value := ((sourcesOf i)[0]?.map fun r => s.readX (regSlot r)).getD l.rs1Value
    rs2Value := ((sourcesOf i)[1]?.map fun r => s.readX (regSlot r)).getD l.rs2Value
    rs3Value := ((sourcesOf i)[2]?.map fun r => s.readX (regSlot r)).getD l.rs3Value }

/-- The latch with the result, address or target that EX1 computes (R113). -/
def Latch.computed (l : Latch) (i : Instr) : Latch :=
  match i with
  | .movc _ imm => { l with buffer := imm }
  | .add _ _ _ => { l with buffer := l.rs1Value + l.rs2Value }
  | .sub _ _ _ => { l with buffer := l.rs1Value - l.rs2Value }
  | .mul _ _ _ => { l with buffer := l.rs1Value * l.rs2Value }
  | .and _ _ _ => { l with buffer := l.rs1Value &&& l.rs2Value }
  | .or _ _ _ => { l with buffer := l.rs1Value ||| l.rs2Value }
  | .exOr _ _ _ => { l with buffer := l.rs1Value ^^^ l.rs2Value }
  | .load _ _ imm => { l with memAddress := l.rs1Value + imm }
  | .store _ _ imm => { l with memAddress := l.rs2Value + imm }
  | .ldr _ _ _ => { l with memAddress := l.rs1Value + l.rs2Value }
  | .str _ _ _ => { l with memAddress := l.rs2Value + l.rs3Value }
  | .jump _ imm => { l with buffer := l.rs1Value + imm }
  | .bz _ => l
  | .bnz _ => l
  | .halt => l

/-- The latch with the loaded cell in the buffer, for a load (R109). -/
def State.loaded (s : State) (i : Instr) (l : Latch) : Latch :=
  if i.cls = .load ∨ i.cls = .ldr then { l with buffer := s.cell l.memAddress } else l

/-- The memory with the datum written, for a store (R109). -/
def State.stored (s : State) (i : Instr) (l : Latch) : State :=
  if i.cls = .store ∨ i.cls = .str then s.setCell l.memAddress l.rs1Value else s

/-- The data memory is all that a store changes. -/
theorem stored_eq (s : State) (i : Instr) (l : Latch) : s.stored i l = { s with dmem := (s.stored i l).dmem } := by
  unfold State.stored
  split <;> rfl

/-- EX1 of every instruction (R113, R114). -/
theorem exec_in_ex1 (i : Instr) (s : State) :
    exec i { s with unit := .ex1 } = .next (afterEx1 (s.claim i.dest) (s.L.ex1.computed i)) := by
  cases i <;> rfl

/-- MEM2 of every instruction whose access, if it has one, is in range (R109). -/
theorem exec_in_mem2 {i : Instr} {s : State}
    (ha : AccessesMemory i.cls → s.L.mem2.memAddress.toNat < s.launch.dmemCells) :
    exec i { s with unit := .mem2 } = .next (afterMem2 (s.stored i s.L.mem2) (s.loaded i s.L.mem2)) := by
  cases i with
  | load => exact congrArg _ (mem2Load_in_range (ha (.inl rfl)))
  | ldr => exact congrArg _ (mem2Load_in_range (ha (.inr (.inl rfl))))
  | store => exact congrArg _ (mem2Store_in_range (ha (.inr (.inr (.inl rfl)))))
  | str => exact congrArg _ (mem2Store_in_range (ha (.inr (.inr (.inr rfl)))))
  | _ => rfl

/-- What the latch of an instruction carries once EX1 has performed it, `s` being the state whose registers and memory it
was read from: the result, the address and the datum of its rule (R113, R170). -/
structure Carries (s : State) (i : Instr) (l : Latch) : Prop where
  result : ∀ rd, i.dest = some rd → ¬ AccessesMemory i.cls → l.buffer = resultOf s i
  address : ∀ a, accessOf s i = some a → l.memAddress = a
  datum : ∀ v, storedOf s i = some v → l.rs1Value = v

/-- The latch of an instruction whose needed sources have been read, the other source values being what they may (R120). -/
def ReadFrom (s : State) (i : Instr) (l : Latch) : Prop := s.readLatch i l = l

/-- EX1 computes what the rule of the instruction says (R113). -/
theorem carries_computed {s : State} {i : Instr} {l : Latch} (hl : ReadFrom s i l) : Carries s i (l.computed i) := by
  rw [← show s.readLatch i l = l from hl]
  cases i <;> constructor <;> simp [Instr.dest, AccessesMemory, Instr.cls, accessOf, storedOf] <;> rfl

/-- Only loads and stores access a cell (R109, R170). -/
theorem accessOf_isSome_iff (s : State) (i : Instr) : (accessOf s i).isSome = true ↔ AccessesMemory i.cls := by
  cases i <;> simp [accessOf, AccessesMemory, Instr.cls]

/-- Only a store changes the memory (R64). -/
theorem memoryAfter_eq (s : State) {i : Instr} (hi : i.cls ≠ .store ∧ i.cls ≠ .str) : memoryAfter s i = s.dmem := by
  cases i <;> simp_all [Instr.cls, memoryAfter, accessOf, storedOf]

/-- What MEM2 hands to WB holds the result of an instruction with a destination (R109). -/
theorem Carries.loaded_buffer {s m : State} {i : Instr} {l : Latch} (h : Carries s i l) (hm : m.dmem = s.dmem) (rd : Reg)
    (hd : i.dest = some rd) : (m.loaded i l).buffer = resultOf s i := by
  cases i with
  | load | ldr =>
    rw [State.loaded, if_pos (by simp [Instr.cls])]
    simp only [State.cell, hm, h.address _ rfl]
    rfl
  | store | str | bz | bnz | jump | halt => cases hd
  | _ => exact h.result rd hd (by simp [AccessesMemory, Instr.cls])

/-- MEM2 leaves the memory of the rule (R64, R109). -/
theorem Carries.stored_dmem {s m : State} {i : Instr} {l : Latch} (h : Carries s i l) (hm : m.dmem = s.dmem) :
    (m.stored i l).dmem = memoryAfter s i := by
  cases i with
  | store | str =>
    rw [State.stored, if_pos (by simp [Instr.cls]), State.setCell_dmem, hm, h.address _ rfl, h.datum _ rfl]
    rfl
  | _ => exact hm

/-- The address in the latch is in range where the access of the rule is. -/
theorem Carries.in_range {s : State} {i : Instr} {l : Latch} (h : Carries s i l) {n : Nat}
    (ha : ∀ a, accessOf s i = some a → a.toNat < n) (hi : AccessesMemory i.cls) : l.memAddress.toNat < n := by
  obtain ⟨a, hacc⟩ := Option.isSome_iff_exists.mp ((accessOf_isSome_iff s i).mpr hi)
  exact h.address a hacc ▸ ha a hacc

/-- The register file after WB is that of the rule (R105, R151). -/
theorem wbFile_x {s m : State} {i : Instr} (hx : m.x = s.x)
    (hb : ∀ rd, i.dest = some rd → m.L.wb.buffer = resultOf s i) : (m.wbFile i).x = (fileAfter s i).x := by
  unfold State.wbFile fileAfter
  cases hd : i.dest with
  | none => exact hx
  | some rd =>
    have hb := hb rd hd
    by_cases hc : i.cls = .arith <;> simp [hc, hx, hb, ccOf]

/-- WB makes a destination VALID again (R105). -/
def State.release (s : State) : Option Reg → State
  | none => s
  | some rd => s.writeV (regSlot rd) true

/-- The validity bits after WB of a claimed destination (R105, R113). -/
theorem wbFile_valid {s m : State} {i : Instr} (hv : m.valid = (s.claim i.dest).valid) :
    (m.wbFile i).valid = (s.release i.dest).valid := by
  unfold State.wbFile
  cases hd : i.dest with
  | none => exact hv.trans (by rw [hd]; rfl)
  | some rd => by_cases hc : i.cls = .arith <;> simp [hc, hv, hd, State.claim, State.release, Vector.set_set]

/-! ### The life, stage after stage -/

section Life

variable {i : Instr} {s : State}

theorem performIn_cons {u : Stage} {us : List Stage} {m : State} (h : exec i { s with unit := u } = .next m) :
    performIn i (u :: us) s = performIn i us m := by
  rw [performIn, h, andThen_next]

/-- The units that perform an instruction after it was decoded keep its content on its way to WB (R103). -/
theorem performContent_ex2_latches {c : Content} {t : State} (h : performContent c { s with unit := .ex2 } = .next t) :
    t.L.mem1 = { s.L.ex2 with done := some .ex2, isEmpty := s.L.mem1.isEmpty } ∧
      t.L.ex2 = { s.L.ex2 with done := some .ex2 } := by
  obtain ⟨a, -, -, hm⟩ | ⟨-, -, hm⟩ | ⟨-, -, hm⟩ := performContent_ex2_shape c s <;>
    obtain rfl := next_unique hm h <;> exact ⟨rfl, rfl⟩

theorem performIn_append {us vs : List Stage} {m : State} (h : performIn i us s = .next m) :
    performIn i (us ++ vs) s = performIn i vs m := by
  induction us generalizing s with
  | nil => rw [Host.Outcome.next.inj h, List.nil_append]
  | cons u us ih =>
    obtain ⟨n, hn, hr⟩ := andThen_eq_next h
    rw [List.cons_append, performIn_cons hn, ih hr]

theorem performIn_unitsFrame {us : List Stage} {t : State} (h : performIn i us s = .next t) : UnitsFrame us s t := by
  induction us generalizing s with
  | nil => exact Host.Outcome.next.inj h ▸ .refl [] s
  | cons u us ih =>
    obtain ⟨m, hm, hr⟩ := andThen_eq_next h
    exact ((performContent_unitsFrame (.instr i) hm).mono (by simp)).trans ((ih hr).mono (by simp))

/-- The validity bits of a claim depend on the validity bits alone. -/
theorem claim_valid_congr {m : State} (h : m.valid = s.valid) (o : Option Reg) :
    (m.claim o).valid = (s.claim o).valid := by
  cases o <;> simp [State.claim, h]

/-- The life of an instruction with its sources read, by its signals after DRF, EX1 and EX2: its result, its validity bit,
its memory and its count are those of the rule, whatever it is (R105, R108, R109, R113). -/
theorem life_after_ex2 {m₁ m₂ m₃ : State} (hdrf : exec i { s with unit := .drf } = .next m₁)
    (hex1 : exec i { m₁ with unit := .ex1 } = .next m₂) (hex2 : exec i { m₂ with unit := .ex2 } = .next m₃)
    (hl : ReadFrom s i m₁.L.ex1) (ha : ∀ a, accessOf s i = some a → a.toNat < s.launch.dmemCells) :
    ∃ t, life i s = .next t ∧ t.x = (fileAfter s i).x ∧ t.valid = (s.release i.dest).valid ∧ t.dmem = memoryAfter s i ∧
      OnlyCounts s t ∧ t.flushPending = m₃.flushPending ∧ t.flushTarget = m₃.flushTarget ∧ t.haltSev = m₃.haltSev ∧
      t.stopReq = if i = .halt then .halt else s.stopReq := by
  have hmem1 : exec i { m₃ with unit := .mem1 } = .next (afterMem1 m₃) := performContent_mem1 (.instr i) m₃
  have hfront : performIn i [.drf, .ex1, .ex2, .mem1] s = .next (afterMem1 m₃) := by
    rw [performIn_cons hdrf, performIn_cons hex1, performIn_cons hex2, performIn_cons hmem1, performIn]
  have hframe := performIn_unitsFrame hfront
  have hcarries : Carries s i (afterMem1 m₃).L.mem2 := by
    have hc := carries_computed hl
    obtain rfl := next_unique (exec_in_ex1 i m₁) hex1
    have hex2l := (performContent_ex2_latches (c := .instr i) hex2).1
    have hmem2 : (afterMem1 m₃).L.mem2 = { m₃.L.mem1 with done := some .mem1, isEmpty := m₃.L.mem2.isEmpty } := rfl
    rw [hmem2, hex2l]
    exact ⟨hc.result, hc.address, hc.datum⟩
  have hvalid : (afterMem1 m₃).valid = (s.claim i.dest).valid := by
    have h₁ : m₁.valid = s.valid := (performContent_unitsFrame (.instr i) hdrf).valid (by decide) (by decide)
    have h₃ : m₃.valid = m₂.valid := (performContent_unitsFrame (.instr i) hex2).valid (by decide) (by decide)
    obtain rfl := next_unique (exec_in_ex1 i m₁) hex1
    exact h₃.trans (claim_valid_congr h₁ i.dest)
  have hmem2 := exec_in_mem2 (i := i) (s := afterMem1 m₃) (hframe.launch ▸ hcarries.in_range ha)
  have hmem1 := performContent_unitsFrame (.instr i) hmem1
  have hrun : (afterMem1 m₃).runState = s.runState := hframe.runState (by decide) (by decide) (by decide)
  have hout : (afterMem1 m₃).outcome = s.outcome := hframe.outcome (by decide) (by decide) (by decide)
  generalize afterMem1 m₃ = m₄ at *
  have hdmem : (m₄.stored i m₄.L.mem2).dmem = memoryAfter s i := hcarries.stored_dmem (hframe.dmem (by decide))
  have hbuf := hcarries.loaded_buffer (hframe.dmem (by decide))
  rw [stored_eq, hdmem] at hmem2
  have hwb := exec_in_wb i (afterMem2 { m₄ with dmem := memoryAfter s i } (m₄.loaded i m₄.L.mem2))
  have hx := wbFile_x (m := afterMem2 { m₄ with dmem := memoryAfter s i } (m₄.loaded i m₄.L.mem2))
    (hframe.x (by decide)) hbuf
  have hv := wbFile_valid (m := afterMem2 { m₄ with dmem := memoryAfter s i } (m₄.loaded i m₄.L.mem2)) hvalid
  have hlife := performIn_append (vs := [.mem2, .wb]) hfront
  rw [performIn_cons hmem2, performIn_cons hwb, performIn] at hlife
  refine ⟨_, hlife, hx, hv, ?_⟩
  rw [wbFile_eq]
  exact ⟨rfl, ⟨hframe.launch, hframe.imem, hframe.pc (by decide), hframe.clock, hrun, hout, hframe.S0,
    congrArg (· + 1) (hframe.insCompleted (by decide))⟩, hmem1.flushPending (by decide), hmem1.flushTarget (by decide),
    hmem1.haltSev (by decide) (by decide),
    congrArg (fun q => if i = .halt then StopReq.halt else q) (hframe.stopReq (by decide))⟩

/-- Only loads and stores access a cell (R109, R170). -/
theorem accessOf_eq_none (s : State) (hi : ¬ AccessesMemory i.cls) : accessOf s i = none := by
  rw [← Option.not_isSome_iff_eq_none, accessOf_isSome_iff]
  exact hi

/-- The life of an instruction that transfers no control (R150, R160, R170). -/
theorem life_of_no_transfer (hbranch : i.cls ≠ .branch) (hjump : i.cls ≠ .jump) (hhalt : i.cls ≠ .halt)
    (hall : AllValid s (sourcesOf i)) (ha : ∀ a, accessOf s i = some a → a.toNat < s.launch.dmemCells) :
    ∃ t, life i s = .next t ∧ t.x = (fileAfter s i).x ∧ t.valid = (s.release i.dest).valid ∧
      t.dmem = memoryAfter s i ∧ SameSignals s t ∧ OnlyCounts s t := by
  have hhalt' : i ≠ .halt := by rintro rfl; exact hhalt rfl
  have hdrf : exec i { s with unit := .drf } = .next (afterDrf s (s.readLatch i s.L.drf)) :=
    decodeReadsValidSourcesAndAdvances i s hbranch hhalt' hall
  have hread : ReadFrom s i (afterDrf s (s.readLatch i s.L.drf)).L.ex1 := by
    cases i <;> rfl
  obtain ⟨m₂, hex1⟩ := exec_next i { afterDrf s (s.readLatch i s.L.drf) with unit := .ex1 }
  have hex2 := performContent_ex2_pass (c := .instr i) hbranch hjump hhalt m₂
  have hframe := (performContent_unitsFrame (.instr i) hex1)
  obtain ⟨t, hlife, hx, hv, hd, hcount, hpending, htarget, hsev, hstop⟩ := life_after_ex2 hdrf hex1 hex2 hread ha
  exact ⟨t, hlife, hx, hv, hd, ⟨hpending.trans (hframe.flushPending (by decide)),
    htarget.trans (hframe.flushTarget (by decide)), hsev.trans (hframe.haltSev (by decide) (by decide)),
    hstop.trans (if_neg hhalt')⟩, hcount⟩

/-- The life of a control transfer: it changes no register, no validity bit and no cell (R180). -/
theorem life_of_transfer {m₁ m₂ m₃ : State} (hdrf : exec i { s with unit := .drf } = .next m₁)
    (hex1 : exec i { m₁ with unit := .ex1 } = .next m₂) (hex2 : exec i { m₂ with unit := .ex2 } = .next m₃)
    (hl : ReadFrom s i m₁.L.ex1) (hdest : i.dest = none) (hmem : ¬ AccessesMemory i.cls) :
    ∃ t, life i s = .next t ∧ t.x = s.x ∧ t.valid = s.valid ∧ t.dmem = s.dmem ∧ OnlyCounts s t ∧
      t.haltSev = m₃.haltSev ∧ t.stopReq = (if i = .halt then .halt else s.stopReq) ∧
      t.flushPending = m₃.flushPending ∧ t.flushTarget = m₃.flushTarget := by
  have hnone := accessOf_eq_none s hmem
  obtain ⟨t, hlife, hx, hv, hd, hcount, hpending, htarget, hsev, hstop⟩ :=
    life_after_ex2 hdrf hex1 hex2 hl (by simp [hnone])
  simp only [fileAfter, hdest] at hx
  simp only [State.release, hdest] at hv
  simp only [memoryAfter, hnone] at hd
  exact ⟨t, hlife, hx, hv, hd, hcount, hsev, hstop, hpending, htarget⟩

end Life

/-! ### The statements -/

/-- Settles O29: the life of an instruction without control transfer, for an arithmetic one. -/
theorem lifeOfArithmetic : Obligations.LifeOfArithmetic := by
  unfold Obligations.LifeOfArithmetic
  intro i rd s hcls hdest hall
  have hnone : accessOf s i = none := accessOf_eq_none s (by simp [AccessesMemory, hcls])
  obtain ⟨t, hlife, hx, hvalid, hdmem, hsame, hcount⟩ :=
    life_of_no_transfer (by simp [hcls]) (by simp [hcls]) (by simp [hcls]) hall (by simp [hnone])
  rw [memoryAfter_eq s (by simp [hcls])] at hdmem
  simp only [fileAfter, hdest, if_pos hcls] at hx
  simp only [State.release, hdest] at hvalid
  exact ⟨t, hlife, hx, hvalid, hdmem, hsame, hcount⟩

/-- Settles O30: the same for MOVC, which has no source and writes no CC. -/
theorem lifeOfMove : Obligations.LifeOfMove := by
  unfold Obligations.LifeOfMove
  intro rd imm s
  have hall : AllValid s (sourcesOf (.movc rd imm)) := fun r hr => nomatch hr
  have hrange : ∀ a, accessOf s (.movc rd imm) = some a → a.toNat < s.launch.dmemCells := fun a ha => nomatch ha
  exact life_of_no_transfer (i := .movc rd imm) (by simp [Instr.cls]) (by simp [Instr.cls]) (by simp [Instr.cls]) hall hrange

/-- Settles O31: the same for the two loads. -/
theorem lifeOfLoads : Obligations.LifeOfLoads := by
  unfold Obligations.LifeOfLoads
  intro i rd a s hcls hdest hall haccess ha
  have hrange : ∀ b, accessOf s i = some b → b.toNat < s.launch.dmemCells :=
    fun b hb => Option.some.inj (haccess.symm.trans hb) ▸ ha
  cases i with
  | load | ldr =>
    obtain rfl := Option.some.inj hdest
    obtain rfl := Option.some.inj haccess
    exact life_of_no_transfer (by simp [Instr.cls]) (by simp [Instr.cls]) (by simp [Instr.cls]) hall hrange
  | _ => simp [Instr.cls] at hcls

/-- Settles O32: the same for the two stores; a write to a canonical memory changes the cell written and no other. -/
theorem lifeOfStores : Obligations.LifeOfStores := by
  unfold Obligations.LifeOfStores
  intro i a v s hcls hwf hall haccess hstored ha
  have hrange : ∀ b, accessOf s i = some b → b.toNat < s.launch.dmemCells :=
    fun b hb => Option.some.inj (haccess.symm.trans hb) ▸ ha
  have hnot : i.cls ≠ .branch ∧ i.cls ≠ .jump ∧ i.cls ≠ .halt := by obtain h | h := hcls <;> simp [h]
  have hdest : i.dest = none := by cases i <;> simp_all [Instr.cls, Instr.dest]
  obtain ⟨t, hlife, hx, hvalid, hdmem, hsame, hcount⟩ := life_of_no_transfer hnot.1 hnot.2.1 hnot.2.2 hall hrange
  simp only [fileAfter, hdest] at hx
  simp only [State.release, hdest] at hvalid
  have hcell (b : Word) : t.cell b = if a = b then v else s.cell b := by
    rw [State.cell, hdmem, memoryAfter, haccess, hstored]
    exact cell_setCell s a v b hwf
  exact ⟨t, hlife, hx, hvalid, (hcell a).trans (if_pos rfl), fun b hb => (hcell b).trans (if_neg hb.symm), hsame, hcount⟩

/-- Settles O33: DRF lets the branch pass, EX2 takes it or not, and nothing else acts. -/
theorem lifeOfBranches : Obligations.LifeOfBranches := by
  unfold Obligations.LifeOfBranches
  intro i imm taken s hahead hi
  obtain ⟨hbz, hbnz⟩ := (branchesWaitForArithmeticAhead imm s).2 hahead
  have hmem : ¬ AccessesMemory .branch := by simp [AccessesMemory]
  obtain ⟨zTaken, zNot, nTaken, nNot⟩ :=
    branchesResolveInExecute2 imm (afterEx1 (afterDrf s s.L.drf) (afterDrf s s.L.drf).L.ex1) _ rfl
  rw [← word_add_eq] at zTaken nTaken
  obtain ⟨-, -, -, -, -, -, zEx1, nEx1, -⟩ := movesAddressesAndTargetsInExecute1 0 0 0 imm (afterDrf s s.L.drf)
  obtain ⟨rfl, rfl⟩ | ⟨rfl, rfl⟩ := hi
  · by_cases hcc : s.readX ccSlot = 1
    · rw [decide_eq_true hcc]
      have hlife := life_of_transfer hbz zEx1 (zTaken hcc) rfl rfl hmem
      exact hlife
    · rw [decide_eq_false hcc]
      have hlife := life_of_transfer hbz zEx1 (zNot hcc) rfl rfl hmem
      exact hlife
  · by_cases hcc : s.readX ccSlot = 0
    · rw [decide_eq_true hcc]
      have hlife := life_of_transfer hbnz nEx1 (nTaken hcc) rfl rfl hmem
      exact hlife
    · rw [decide_eq_false hcc]
      have hlife := life_of_transfer hbnz nEx1 (nNot hcc) rfl rfl hmem
      exact hlife

/-- Settles O34: DRF reads the base, EX1 computes the target, EX2 asks for the flush. -/
theorem lifeOfJump : Obligations.LifeOfJump := by
  unfold Obligations.LifeOfJump
  intro rs1 imm s hvalid
  have hall : AllValid s (sourcesOf (.jump rs1 imm)) := by simpa [AllValid, sourcesOf] using hvalid
  have hdrf := decodeReadsValidSourcesAndAdvances (.jump rs1 imm) s (by simp [Instr.cls]) (by simp) hall
  exact life_of_transfer hdrf (exec_in_ex1 _ _) rfl rfl rfl (by simp [AccessesMemory, Instr.cls])

/-- Settles O35: the two HALT checks pass, and WB asks for the stop. -/
theorem lifeOfHalt : Obligations.LifeOfHalt := by
  unfold Obligations.LifeOfHalt
  intro s hdrf hex2
  have hdrf := (haltInDecodeRaisesTheWeakHalt s).1 hdrf
  have hex2 := (haltInExecute2RaisesTheStrongHalt (afterEx1 (afterDrf { s with
    haltSev := if s.haltSev = .strong then .strong else .weak } s.L.drf) (afterDrf s s.L.drf).L.ex1)).1 hex2
  exact life_of_transfer hdrf (exec_in_ex1 _ _) hex2 rfl rfl (by simp [AccessesMemory, Instr.cls])

end Sys2Proof.Machine

/-!
# The cycle and the step (spec 40_pipeline.md sections 1, 2, 8 to 10)

A cycle answers a next state always; what a unit meets in its latch is what the cycle started with; and what the end of the
cycle does is one of four cases.
-/

namespace Sys2Proof.Machine

open Sys2Proof.Claims

variable {s t : State} {u : Stage}

/-! ### Units in sequence -/

theorem runUnit_next (u : Stage) (s : State) : ∃ t, runUnit u s = .next t := by
  obtain hr | hr := stopped_or_running s
  · exact ⟨s, runUnit_stopped u s hr⟩
  · by_cases hu : u = .f
    · subst hu
      rw [runUnit_fetch s hr]
      exact performContent_next _ _
    · obtain ⟨-, h⟩ | ⟨-, h⟩ := runUnit_latch_cases u s hu hr <;> rw [h]
      · exact performContent_next _ _
      · exact ⟨_, rfl⟩

theorem runUnits_next (us : List Stage) (s : State) : ∃ t, runUnits us s = .next t := by
  induction us generalizing s with
  | nil => exact ⟨s, rfl⟩
  | cons u us ih =>
    obtain ⟨m, hm⟩ := runUnit_next u s
    rw [runUnits, hm]
    exact ih m

/-- Nothing runs after a raise (R204). -/
theorem runUnits_stopped (us : List Stage) (hs : s.runState = .stopped) : runUnits us s = .next s := by
  induction us with
  | nil => rfl
  | cons u us ih =>
    rw [runUnits, runUnit_stopped u s hs]
    exact ih

/-- Where the run goes on, no earlier unit has raised (R204). -/
theorem running_of_runUnits {us : List Stage} (h : runUnits us s = .next t) (ht : t.runState = .running) :
    s.runState = .running := by
  obtain hs | hs := stopped_or_running s
  · exact (next_unique h (runUnits_stopped us hs)) ▸ ht
  · exact hs

theorem running_of_runUnit (h : runUnit u s = .next t) (ht : t.runState = .running) : s.runState = .running :=
  running_of_runUnits (us := [u]) (by rw [runUnits, h]; rfl) ht

/-- A unit whose latch is not fresh sets its display flag and does nothing else (R104, R133). -/
theorem runUnit_idle (hu : u ≠ .f) (hs : s.runState = .running) (hf : (s.S0.get u).fresh u = false)
    (h : runUnit u s = .next t) : t = ({ s with unit := u } : State).setIsEmpty u true := by
  obtain ⟨hf', -⟩ | ⟨-, hp⟩ := runUnit_latch_cases u s hu hs
  · exact absurd (hf.symm.trans hf') (by decide)
  · exact next_unique h hp

/-- A unit whose latch is fresh performs the content (R102). -/
theorem runUnit_performs (hu : u ≠ .f) (hs : s.runState = .running) (hf : (s.S0.get u).fresh u = true)
    (h : runUnit u s = .next t) :
    performContent (s.content (s.latch u)) { s.setIsEmpty u false with unit := u } = .next t := by
  obtain ⟨-, hp⟩ | ⟨hf', -⟩ := runUnit_latch_cases u s hu hs
  · exact hp.symm.trans h
  · exact absurd (hf.symm.trans hf') (by decide)

/-- The unit `u` in the cycle that starts in `s`: it runs after the units `us` and before the units `vs`, and meets the latch
that the cycle started with. -/
structure UnitInCycle (u : Stage) (us vs : List Stage) (s a b m : State) : Prop where
  before : runUnits us s.beginCycle = .next a
  unit : runUnit u a = .next b
  after : runUnits vs b = .next m
  launch : a.launch = s.launch
  imem : a.imem = s.imem
  S0 : a.S0 = s.L
  latch : a.latch u = s.latch u

/-- Every unit but F meets its start-of-cycle latch: the units before it are downstream of it (R100, R103). The units `order`
are those of a cycle or of its first part. -/
theorem unit_in_cycle {m : State} {order : List Stage} (us vs : List Stage) (h : runUnits order s.beginCycle = .next m)
    (horder : order = us ++ u :: vs) (htouch : ∀ v ∈ us, v.touches u = false) :
    ∃ a b, UnitInCycle u us vs s a b m := by
  rw [horder] at h
  obtain ⟨a, ha, h⟩ := runUnits_append_eq_next h
  obtain ⟨b, hb, h⟩ := andThen_eq_next h
  have hframe := runUnits_unitsFrame ha
  exact ⟨a, b, ha, hb, h, hframe.launch, hframe.imem, hframe.S0, hframe.latch u htouch⟩

namespace UnitInCycle

variable {us vs : List Stage} {a b m : State}

theorem content (h : UnitInCycle u us vs s a b m) : a.content (a.latch u) = s.content (s.latch u) := by
  rw [content_congr h.launch h.imem, h.latch]

/-- The occupant of a stage is its fresh start-of-cycle latch (R30). -/
theorem fresh (h : UnitInCycle u us vs s a b m) : (a.S0.get u).fresh u = (s.latch u).fresh u := by
  rw [h.S0]
  rfl

theorem running (h : UnitInCycle u us vs s a b m) (hm : m.runState = .running) :
    a.runState = .running ∧ b.runState = .running :=
  have hb := running_of_runUnits h.after hm
  ⟨running_of_runUnit h.unit hb, hb⟩

/-- A fresh latch's content is performed (R102). -/
theorem performs (h : UnitInCycle u us vs s a b m) (hu : u ≠ .f) (ha : a.runState = .running)
    (hf : (s.latch u).fresh u = true) :
    performContent (s.content (s.latch u)) { a.setIsEmpty u false with unit := u } = .next b := by
  rw [← h.content]
  exact runUnit_performs hu ha (h.fresh.trans hf) h.unit

/-- With a latch that is not fresh, the unit sets its display flag (R104). -/
theorem idle (h : UnitInCycle u us vs s a b m) (hu : u ≠ .f) (ha : a.runState = .running)
    (hf : (s.latch u).fresh u = false) : b = ({ a with unit := u } : State).setIsEmpty u true :=
  runUnit_idle hu ha (h.fresh.trans hf) h.unit

end UnitInCycle

/-! ### Handing on -/

/-- The content `l` of stage `p` stands, fresh, in stage `d`, and `p` has nothing fresh left (R102, R103). -/
structure HandedOn (p d : Stage) (l : Latch) (t : State) : Prop where
  pc : (t.latch d).pc = l.pc
  fields : (t.latch d).fields = l.fields
  done : (t.latch d).done = some p
  own : (t.latch p).fresh p = false

/-- A stage that performs hands its content on, unless it raises or stalls (R103, R119, R204). -/
theorem performContent_handedOn {p d : Stage} (c : Content) (hp : p ≠ .f) (hd : p.downstream = some d)
    (h : performContent c { s with unit := p } = .next t) (hrun : t.runState = .running)
    (hstall : p = .drf → t.L.drf.stalled = false) : HandedOn p d (s.latch p) t := by
  cases p with
  | f => exact absurd rfl hp
  | wb => cases hd
  | drf =>
    obtain rfl := Option.some.inj hd
    obtain hm | ⟨q, a, b, e, -, hm⟩ := performContent_drf_shape c s <;> obtain rfl := next_unique hm h
    · exact absurd (hstall rfl) (by simp [afterDrfStall])
    · exact ⟨rfl, rfl, rfl, not_fresh_of_own_mark _ _ rfl⟩
  | ex1 =>
    obtain rfl := Option.some.inj hd
    obtain ⟨b, a, hm⟩ := performContent_ex1_shape c s
    obtain rfl := next_unique hm h
    exact ⟨rfl, rfl, rfl, not_fresh_of_own_mark _ _ rfl⟩
  | ex2 =>
    obtain rfl := Option.some.inj hd
    obtain ⟨hmem1, hex2⟩ := performContent_ex2_latches h
    exact ⟨(congrArg Latch.pc hmem1 :), (congrArg Latch.fields hmem1 :), (congrArg Latch.done hmem1 :),
      not_fresh_of_own_mark _ _ (congrArg Latch.done hex2 :)⟩
  | mem1 =>
    obtain rfl := Option.some.inj hd
    obtain rfl := next_unique (performContent_mem1 c s) h
    exact ⟨rfl, rfl, rfl, not_fresh_of_empty _ _ rfl⟩
  | mem2 =>
    obtain rfl := Option.some.inj hd
    obtain ⟨b, hm⟩ | ⟨i, -, -, -, hm⟩ | ⟨i, -, -, -, hm⟩ := performContent_mem2_shape c s <;>
      obtain rfl := next_unique hm h
    · exact ⟨rfl, rfl, rfl, not_fresh_of_empty _ _ rfl⟩
    · exact ⟨rfl, rfl, rfl, not_fresh_of_empty _ _ rfl⟩
    · cases hrun

/-! ### The end of the cycle -/

/-- The latches with those of F and DRF emptied (R126). -/
def Latches.emptyFront (L : Latches) : Latches := { L with f := L.f.flush, drf := L.drf.flush }

/-- The latches with those of F, DRF, EX1 and EX2 emptied (R125, R126). -/
def Latches.emptyFour (L : Latches) : Latches :=
  { L with f := L.f.flush, drf := L.drf.flush, ex1 := L.ex1.flush, ex2 := L.ex2.flush }

/-- The validity bits are all that the restore changes (R127). -/
theorem restoreValid_eq (s : State) : s.restoreValid = { s with valid := s.restoreValid.valid } := by
  obtain h | ⟨l, -, -, -, h⟩ := restoreValid_cases s
  · rw [h]
  · rw [h]
    rfl

/-- What the restore writes depends on the validity bits, the launch data, the program and `e1_done` (R127). -/
theorem restoreValid_congr (hl : t.launch = s.launch) (hi : t.imem = s.imem) (he : t.e1Done = s.e1Done)
    (hv : t.valid = s.valid) : t.restoreValid.valid = s.restoreValid.valid := by
  cases hs : s.e1Done with
  | none => simp [State.restoreValid, he, hs, hv]
  | some l =>
    by_cases h : (s.launch.flushRestoresValid && (s.cls l).writesRd) = true <;>
      simp [State.restoreValid, he, hs, hl, cls_congr hl hi, h, hv]

/-- What reconciliation does, where a flush and a halt are not both pending (R125, R126, R128): nothing but clear the signals;
a flush; a weak halt; a strong halt. -/
theorem reconcile_cases (s : State) (hx : s.flushPending = true → s.haltSev = .none) :
    (s.flushPending = false ∧ s.haltSev = .none ∧
        s.reconcile = { s with flushPending := false, flushTarget := 0, haltSev := .none }) ∨
      (s.flushPending = true ∧ s.haltSev = .none ∧
        s.reconcile = { s with
          valid := s.restoreValid.valid, pc := s.flushTarget, L := s.L.emptyFour,
          flushPending := false, flushTarget := 0, haltSev := .none }) ∨
      (s.flushPending = false ∧ s.haltSev = .weak ∧
        s.reconcile = { s with
          pc := BitVec.ofNat 32 s.endAddr, L := s.L.emptyFront, flushPending := false, flushTarget := 0,
          haltSev := .none }) ∨
      (s.flushPending = false ∧ s.haltSev = .strong ∧
        s.reconcile = { s with
          valid := s.restoreValid.valid, pc := BitVec.ofNat 32 s.endAddr, L := s.L.emptyFour,
          flushPending := false, flushTarget := 0, haltSev := .none }) := by
  cases hf : s.flushPending with
  | true =>
    have hh := hx hf
    refine .inr (.inl ⟨rfl, hh, ?_⟩)
    rw [State.reconcile, State.applyFlush, if_pos hf, restoreValid_eq]
    simp only [State.applyHalt, State.clearExecute, State.clearFront, hh]
    rfl
  | false =>
    have hflush : s.applyFlush = s := if_neg (Bool.eq_false_iff.mp hf)
    rw [State.reconcile, hflush]
    cases hh : s.haltSev with
    | none => exact .inl ⟨rfl, rfl, by simp only [State.applyHalt, hh]⟩
    | weak =>
      refine .inr (.inr (.inl ⟨rfl, rfl, ?_⟩))
      simp only [State.applyHalt, hh]
      rfl
    | strong =>
      refine .inr (.inr (.inr ⟨rfl, rfl, ?_⟩))
      have hv := restoreValid_congr (s := s) (t := ({ s with pc := BitVec.ofNat 32 s.endAddr } : State).clearFront)
        rfl rfl rfl rfl
      simp only [State.applyHalt, hh] at hv ⊢
      rw [restoreValid_eq, hv]
      rfl

end Sys2Proof.Machine

/-!
# The statements on one step (spec 40_pipeline.md sections 1, 8 to 10; 60_exceptions.md sections 1 and 3)
-/

namespace Sys2Proof.Machine

open Sys2Proof.Claims

variable {s t m : State} {u : Stage}

/-! ### What a step can have done -/

/-- A step that answers a next state held a stopped machine, ended the run at the cycle bound, or was a cycle (R35, R130). -/
theorem step_inv (h : step s = .next t) :
    (s.runState = .stopped ∧ t = s) ∨ t = { s with runState := .stopped, outcome := .cycleBound } ∨
      (s.CycleNext ∧ ∃ m, runUnits unitOrder s.beginCycle = .next m ∧ t = m.finishCycle) := by
  obtain ⟨hr, hs⟩ | ⟨-, -, hs⟩ | ⟨-, -, -, hs⟩ | ⟨-, -, -, hs⟩ | ⟨hr, hok, hclock, -⟩ := step_cases s
  · exact .inl ⟨hr, next_unique h hs⟩
  · cases hs.symm.trans h
  · cases hs.symm.trans h
  · exact .inr (.inl (next_unique h hs))
  · exact .inr (.inr ⟨⟨hr, hok, hclock⟩, step_of_cycleNext ⟨hr, hok, hclock⟩ h⟩)

/-- After a raise a cycle has no end (R204). -/
theorem finishCycle_stopped (h : s.runState = .stopped) : s.finishCycle = s := by rw [State.finishCycle, h]

/-- The end of a cycle without a raise (R125 to R129). -/
theorem finishCycle_running (h : s.runState = .running) : s.finishCycle = s.reconcile.endCycle := by
  rw [State.finishCycle, h]

/-- The end of the cycle writes the run state, the outcome and the clock alone (R129). -/
theorem endCycle_eq (s : State) : ∃ r o c, s.endCycle = { s with runState := r, outcome := o, clock := c } := by
  obtain ⟨-, h⟩ | ⟨-, h⟩ | ⟨-, h⟩ := endCycle_cases s <;> exact ⟨_, _, _, h⟩

/-- No cycle has a flush and a halt pending at its end (R135). -/
theorem flush_excludes_halt (hm : runUnits unitOrder s.beginCycle = .next m) (hf : m.flushPending = true) :
    m.haltSev = .none :=
  flushAndHaltExcludeEachOther s m hm hf

/-- What reconciliation and the end of the cycle leave as it was (R125 to R129). -/
structure EndFrame (s t : State) : Prop where
  launch : t.launch = s.launch
  imem : t.imem = s.imem
  x : t.x = s.x
  dmem : t.dmem = s.dmem
  e1Done : t.e1Done = s.e1Done
  mem1 : t.L.mem1 = s.L.mem1
  mem2 : t.L.mem2 = s.L.mem2
  wb : t.L.wb = s.L.wb

theorem finishCycle_frame (hm : runUnits unitOrder s.beginCycle = .next m) : EndFrame m m.finishCycle := by
  obtain hr | hr := stopped_or_running m
  · rw [finishCycle_stopped hr]
    exact ⟨rfl, rfl, rfl, rfl, rfl, rfl, rfl, rfl⟩
  · obtain ⟨r, o, c, hend⟩ := endCycle_eq m.reconcile
    rw [finishCycle_running hr, hend]
    obtain ⟨-, -, h⟩ | ⟨-, -, h⟩ | ⟨-, -, h⟩ | ⟨-, -, h⟩ := reconcile_cases m (flush_excludes_halt hm) <;> rw [h] <;>
      exact ⟨rfl, rfl, rfl, rfl, rfl, rfl, rfl, rfl⟩

/-- A unit stops the run by a raise alone: WB of an ILLEGAL word, MEM2 of an access past the last cell, Fetch at an illegal
address (R201 to R204). -/
theorem performContent_run (c : Content) (h : performContent c { s with unit := u } = .next t) :
    (t.runState = s.runState ∧ t.outcome = s.outcome) ∨
      t.runState = .stopped ∧
        ((u = .wb ∧ c = .illegal) ∧
            t.outcome = .fault (.illegalInstruction s.L.wb.pc s.L.wb.fields.op s.L.wb.fields.resv) ∨
          (u = .mem2 ∧ ∃ i, c = .instr i ∧ AccessesMemory i.cls ∧ s.launch.dmemCells ≤ s.L.mem2.memAddress.toNat) ∧
            t.outcome = .fault (.dataOutOfRange s.L.mem2.pc s.L.mem2.memAddress) ∨
          (u = .f ∧ s.codeAddrOk s.pc = false) ∧ t.outcome = .fault (.fetchOutOfRange s.pc)) := by
  cases u with
  | f =>
    obtain rfl := next_unique (performContent_f c s) h
    cases hst : s.L.drf.stalled with
    | true => exact .inl (by rw [fetch_of_stalled hst]; exact ⟨rfl, rfl⟩)
    | false =>
      cases hok : s.codeAddrOk s.pc with
      | true => exact .inl (by rw [fetch_of_codeAddrOk hst hok]; exact ⟨rfl, rfl⟩)
      | false =>
        rw [fetch_of_not_codeAddrOk hst hok]
        exact .inr ⟨rfl, .inr (.inr ⟨⟨rfl, rfl⟩, rfl⟩)⟩
  | mem2 =>
    obtain ⟨b, hm⟩ | ⟨i, -, -, -, hm⟩ | ⟨i, hc, hi, ha, hm⟩ := performContent_mem2_shape c s <;>
      obtain rfl := next_unique hm h
    · exact .inl ⟨rfl, rfl⟩
    · exact .inl ⟨rfl, rfl⟩
    · exact .inr ⟨rfl, .inr (.inl ⟨⟨rfl, i, hc, hi, ha⟩, rfl⟩)⟩
  | wb =>
    cases c with
    | instr i => exact .inl (exec_run h (by decide) (by decide))
    | illegal =>
      obtain rfl := Host.Outcome.next.inj h
      exact .inr ⟨rfl, .inl ⟨⟨rfl, rfl⟩, rfl⟩⟩
    | endOfCode =>
      obtain rfl := Host.Outcome.next.inj h
      exact .inl ⟨rfl, rfl⟩
  | _ =>
    have hframe := performContent_unitsFrame c h
    exact .inl ⟨hframe.runState (by decide) (by decide) (by decide), hframe.outcome (by decide) (by decide) (by decide)⟩

/-- A unit that stops the run records a fault (R204). -/
theorem runUnit_run (h : runUnit u s = .next t) :
    (t.runState = s.runState ∧ t.outcome = s.outcome) ∨ (t.runState = .stopped ∧ ∃ r, t.outcome = .fault r) := by
  have hperforms {n : State} {c : Content} (hn : n.runState = s.runState ∧ n.outcome = s.outcome)
      (hp : performContent c { n with unit := u } = .next t) :
      (t.runState = s.runState ∧ t.outcome = s.outcome) ∨ (t.runState = .stopped ∧ ∃ r, t.outcome = .fault r) := by
    obtain ⟨hr, ho⟩ | ⟨hr, ⟨-, ho⟩ | ⟨-, ho⟩ | ⟨-, ho⟩⟩ := performContent_run c hp
    · exact .inl ⟨hr.trans hn.1, ho.trans hn.2⟩
    all_goals exact .inr ⟨hr, _, ho⟩
  by_cases hu : u = .f
  · subst hu
    obtain rfl | hp := runUnit_f_inv h
    · exact .inl ⟨rfl, rfl⟩
    · exact hperforms ⟨rfl, rfl⟩ hp
  · obtain rfl | rfl | ⟨-, hp⟩ := runUnit_latch_inv hu h
    · exact .inl ⟨rfl, rfl⟩
    · exact .inl ⟨rfl, rfl⟩
    · exact hperforms (n := s.setIsEmpty u false) ⟨rfl, rfl⟩ hp

/-- In a running cycle the units leave the run going or stop it with a fault (R204). -/
theorem runUnits_run {us : List Stage} (h : runUnits us s = .next t) (hs : s.runState = .running) :
    (t.runState = .running ∧ t.outcome = s.outcome) ∨ (t.runState = .stopped ∧ ∃ r, t.outcome = .fault r) := by
  refine runUnits_invariant (I := fun m => (m.runState = .running ∧ m.outcome = s.outcome) ∨
    (m.runState = .stopped ∧ ∃ r, m.outcome = .fault r)) ?_ h (.inl ⟨hs, rfl⟩)
  rintro u - m n hrun hm
  obtain ⟨hr, ho⟩ | hstop := runUnit_run hrun
  · exact hm.imp (fun h => ⟨hr.trans h.1, ho.trans h.2⟩) fun ⟨h, r, hf⟩ => ⟨hr.trans h, r, ho.trans hf⟩
  · exact .inr hstop

/-- A cycle without a fault has run all its units and its end (R100). -/
theorem cycle_of_no_fault (hc : s.CycleNext) (h : step s = .next t) (hno : ∀ r, t.outcome ≠ .fault r) :
    ∃ m, runUnits unitOrder s.beginCycle = .next m ∧ m.runState = .running ∧ t = m.reconcile.endCycle := by
  obtain ⟨m, hm, rfl⟩ := step_of_cycleNext hc h
  obtain ⟨hr, -⟩ | ⟨hr, r, ho⟩ := runUnits_run hm hc.1
  · exact ⟨m, hm, hr, finishCycle_running hr⟩
  · rw [finishCycle_stopped hr] at hno
    exact absurd ho (hno r)

/-! ### The step as a whole -/

/-- The snapshot's latch of a stage. -/
theorem setIsEmpty_eq (s : State) (u v : Stage) (b : Bool) :
    ({ s with unit := v } : State).setIsEmpty u b =
      { s with unit := v, L := s.L.set u { s.latch u with isEmpty := b } } := rfl

/-- A latch below the end of the program holds the instruction of its fields (R74). -/
theorem content_of_ok {l : Latch} {i : Instr} (ha : l.pc.toNat < s.endAddr) (hd : decodeFields l.fields = .ok i) :
    s.content l = .instr i := by
  rw [State.content, if_neg (Nat.not_le.mpr ha), hd]

/-- A latch below the end of the program whose fields are rejected is ILLEGAL (R74). -/
theorem content_of_error {l : Latch} {e : DecodeError} (ha : l.pc.toNat < s.endAddr)
    (hd : decodeFields l.fields = .error e) : s.content l = .illegal := by
  rw [State.content, if_neg (Nat.not_le.mpr ha), hd]

/-- A latch at or past the end of the program is an END latch (R78). -/
theorem content_of_end {l : Latch} (ha : s.endAddr ≤ l.pc.toNat) : s.content l = .endOfCode := if_pos ha

/-- What a latch that holds an instruction says of its fields (R74, R75). -/
theorem decode_of_content {l : Latch} {i : Instr} (h : s.content l = .instr i) : decodeFields l.fields = .ok i := by
  obtain ha | ha := Nat.lt_or_ge l.pc.toNat s.endAddr
  · cases hd : decodeFields l.fields with
    | ok j => rw [Content.instr.inj ((content_of_ok ha hd).symm.trans h)]
    | error e => cases (content_of_error ha hd).symm.trans h
  · cases (content_of_end ha).symm.trans h

/-- The fields Fetch hands over in the program are those of the word at pc (R122). -/
theorem fetchedLatch_fields_in_program (ha : s.pc.toNat < s.endAddr) :
    s.fetchedLatch.fields = splitWord (s.imemAt s.pc) := if_pos ha

/-- Settles O36: the cycle, its sequence of units and each unit are so by definition. -/
theorem stepRunsTheDecodedInstructions : Obligations.StepRunsTheDecodedInstructions := by
  unfold Obligations.StepRunsTheDecodedInstructions
  refine ⟨?cycle, fun u us s => rfl, ?instr, ?content, ?idle, ?fetch, ?illegal, ?pastEnd, runUnit_stopped⟩
  case cycle =>
    rintro s ⟨hr, hok, hclock⟩
    obtain ⟨h, -⟩ | ⟨-, h, -⟩ | ⟨-, h, h', -⟩ | ⟨-, -, h, -⟩ | ⟨-, -, -, h⟩ := step_cases s
    · exact absurd (hr.symm.trans h) (by decide)
    · simp [State.launchOk, Launch.ok, h] at hok
    · simp [State.launchOk, Launch.ok, h'] at hok
    · exact absurd hclock (Nat.not_lt.mpr h)
    · exact h
  case instr =>
    intro u i s hu hr hf hc
    obtain ⟨-, h⟩ | ⟨hf', -⟩ := runUnit_latch_cases u s hu hr
    · rw [h, hc, setIsEmpty_eq]
      rfl
    · exact absurd (hf.symm.trans hf') (by decide)
  case content =>
    intro u c s hu hr hf hc
    obtain ⟨-, h⟩ | ⟨hf', -⟩ := runUnit_latch_cases u s hu hr
    · rw [h, hc, setIsEmpty_eq]
    · exact absurd (hf.symm.trans hf') (by decide)
  case idle =>
    intro u s hu hr hf
    obtain ⟨hf', -⟩ | ⟨-, h⟩ := runUnit_latch_cases u s hu hr
    · exact absurd (hf.symm.trans hf') (by decide)
    · rw [h, setIsEmpty_eq]
  case fetch =>
    intro i s hr ha hd
    have hd : decodeFields s.fetchedLatch.fields = .ok i := (fetchedLatch_fields_in_program ha).symm ▸ hd
    rw [runUnit_fetch s hr, State.fetchedContent, content_of_ok ha hd]
    rfl
  case illegal =>
    intro e s hr ha hd
    have hd : decodeFields s.fetchedLatch.fields = .error e := (fetchedLatch_fields_in_program ha).symm ▸ hd
    rw [runUnit_fetch s hr, State.fetchedContent, content_of_error ha hd]
  case pastEnd =>
    intro s hr ha
    rw [runUnit_fetch s hr, State.fetchedContent, content_of_end ha]

/-- Settles O38: the first case of a step. -/
theorem stoppedMachineHoldsItsState : Obligations.StoppedMachineHoldsItsState := by
  unfold Obligations.StoppedMachineHoldsItsState
  intro s hs
  obtain ⟨-, h⟩ | ⟨hr, -⟩ | ⟨hr, -⟩ | ⟨hr, -⟩ | ⟨hr, -⟩ := step_cases s
  · exact h
  all_goals exact absurd (hs.symm.trans hr) (by decide)

/-- Settles O39: the bound is looked at before the cycle. -/
theorem cycleBoundEndsTheRun : Obligations.CycleBoundEndsTheRun := by
  unfold Obligations.CycleBoundEndsTheRun
  intro s hr hok hb
  obtain ⟨hp, hf⟩ : s.launch.parametersOk s.progLen = true ∧ s.launch.programFits s.progLen = true := by
    simpa [State.launchOk, Launch.ok] using hok
  simp [step, runLoopStep, loopIteration, hr, hp, hf, hb]

/-- Settles O40: every unit answers a next state, so every cycle does. -/
theorem everyStepCompletes : Obligations.EveryStepCompletes := by
  unfold Obligations.EveryStepCompletes
  intro s
  have hcycle : ∃ t, cycle s = .next t := by
    obtain ⟨m, hm⟩ := runUnits_next unitOrder s.beginCycle
    exact ⟨m.finishCycle, by rw [cycle, hm, andThen_next]⟩
  obtain ⟨hr, h⟩ | ⟨-, hp, h⟩ | ⟨-, -, hf, h⟩ | ⟨-, hok, -, h⟩ | ⟨-, hok, -, h⟩ := step_cases s
  · exact ⟨fun _ => ⟨s, h⟩, fun hr' => absurd (hr.symm.trans hr') (by decide)⟩
  · exact ⟨fun hok => by simp [State.launchOk, Launch.ok, hp] at hok, fun _ _ => .inr h⟩
  · exact ⟨fun hok => by simp [State.launchOk, Launch.ok, hf] at hok, fun _ _ => .inl h⟩
  · exact ⟨fun _ => ⟨_, h⟩, fun _ hbad => absurd (hok.symm.trans hbad) (by decide)⟩
  · exact ⟨fun _ => h ▸ hcycle, fun _ hbad => absurd (hok.symm.trans hbad) (by decide)⟩

/-- Settles O41: no unit and no end of a cycle writes the launch data or the program. -/
theorem stepKeepsTheProgram : Obligations.StepKeepsTheProgram := by
  unfold Obligations.StepKeepsTheProgram
  intro s t h
  obtain ⟨-, rfl⟩ | rfl | ⟨-, m, hm, rfl⟩ := step_inv h
  · exact ⟨rfl, rfl⟩
  · exact ⟨rfl, rfl⟩
  · have hunits := runUnits_unitsFrame hm
    have hend := finishCycle_frame hm
    exact ⟨hend.launch.trans hunits.launch, hend.imem.trans hunits.imem⟩

end Sys2Proof.Machine

/-!
# What changes in a cycle, and where (spec 10_state.md, 40_pipeline.md, 60_exceptions.md)
-/

namespace Sys2Proof.Machine

open Sys2Proof.Claims

variable {s t a b m : State} {u : Stage}

/-! ### Writeback, the first unit of a cycle -/

/-- What the first unit of a cycle does: its display flag alone; the writeback of an instruction; the raise of an ILLEGAL
word; the drain of an END latch (R104 to R108, R203). -/
theorem wb_in_cycle (hr : s.runState = .running) (h : runUnit .wb s.beginCycle = .next b) :
    (s.L.wb.fresh .wb = false ∧ b = ({ s.beginCycle with unit := .wb } : State).setIsEmpty .wb true) ∨
      (∃ i, Holds s .wb i ∧ b = afterWb { (s.beginCycle.setIsEmpty .wb false).wbFile i with
        stopReq := if i = .halt then .halt else .none }) ∨
      ((s.L.wb.fresh .wb = true ∧ s.content s.L.wb = .illegal) ∧ b = afterRaise (s.beginCycle.setIsEmpty .wb false) .wb
        (.illegalInstruction s.L.wb.pc s.L.wb.fields.op s.L.wb.fields.resv)) ∨
      ((s.L.wb.fresh .wb = true ∧ s.content s.L.wb = .endOfCode) ∧ b = { s.beginCycle with
        unit := .wb, stopReq := .drain
        L := { s.L with wb := { s.L.wb with isEmpty := false, done := some .wb } } }) := by
  cases hf : s.L.wb.fresh .wb with
  | false => exact .inl ⟨rfl, runUnit_idle (u := .wb) (s := s.beginCycle) (by decide) hr hf h⟩
  | true =>
    have hp := runUnit_performs (u := .wb) (s := s.beginCycle) (by decide) hr hf h
    have hcontent : s.beginCycle.content (s.beginCycle.latch .wb) = s.content s.L.wb := rfl
    rw [hcontent] at hp
    cases hc : s.content s.L.wb with
    | instr i =>
      rw [hc] at hp
      exact .inr (.inl ⟨i, ⟨hf, hc⟩, next_unique hp (exec_in_wb i _)⟩)
    | illegal =>
      rw [hc] at hp
      exact .inr (.inr (.inl ⟨⟨rfl, rfl⟩, next_unique hp (performContent_wb_illegal _)⟩))
    | endOfCode =>
      rw [hc] at hp
      exact .inr (.inr (.inr ⟨⟨rfl, rfl⟩, next_unique hp (performContent_wb_endOfCode _)⟩))

/-- Settles O53: no unit but WB writes the register file, and WB writes what R105 says. -/
theorem registersChangeOnlyInWriteback : Obligations.RegistersChangeOnlyInWriteback := by
  unfold Obligations.RegistersChangeOnlyInWriteback
  intro j s t h hne
  obtain ⟨-, rfl⟩ | rfl | ⟨⟨hr, -, -⟩, m, hm, rfl⟩ := step_inv h
  · exact absurd rfl hne
  · exact absurd rfl hne
  obtain ⟨b, hwb, hrest⟩ := andThen_eq_next hm
  have hx : m.finishCycle.readX j = b.readX j := by
    rw [State.readX, State.readX, (finishCycle_frame hm).x, (runUnits_unitsFrame hrest).x (by decide)]
  rw [hx] at hne ⊢
  obtain ⟨-, rfl⟩ | ⟨i, hi, rfl⟩ | ⟨-, rfl⟩ | ⟨-, rfl⟩ := wb_in_cycle hr hwb
  · exact absurd rfl hne
  · refine ⟨i, hi, ?_⟩
    have hfile := wbFile_readX (s.beginCycle.setIsEmpty .wb false) i j
    by_cases hcc : i.cls = .arith ∧ j = ccSlot
    · rw [if_pos hcc] at hfile
      exact .inr ⟨hcc.2, hcc.1, hfile⟩
    · rw [if_neg hcc] at hfile
      by_cases hd : ∃ rd, i.dest = some rd ∧ regSlot rd = j
      · rw [if_pos hd] at hfile
        obtain ⟨rd, hd, hj⟩ := hd
        exact .inl ⟨rd, hd, hj, hfile⟩
      · rw [if_neg hd] at hfile
        exact absurd hfile hne
  · exact absurd rfl hne
  · exact absurd rfl hne

/-! ### MEM2, the only writer of the data memory -/

/-- Settles O54: no unit but MEM2 writes the data memory, and there a store writes its cell. -/
theorem cellsChangeOnlyByAStore : Obligations.CellsChangeOnlyByAStore := by
  unfold Obligations.CellsChangeOnlyByAStore
  intro c s t hwf h hne
  obtain ⟨-, rfl⟩ | rfl | ⟨-, m, hm, rfl⟩ := step_inv h
  · exact absurd rfl hne
  · exact absurd rfl hne
  obtain ⟨a, b, hmem2⟩ := unit_in_cycle (u := .mem2) [.wb] [.mem1, .ex2, .ex1, .drf, .f] hm rfl (by decide)
  have hbefore : a.dmem = s.dmem := (runUnits_unitsFrame hmem2.before).dmem (by decide)
  have hcell : m.finishCycle.cell c = b.cell c := by
    rw [State.cell, State.cell, (finishCycle_frame hm).dmem, (runUnits_unitsFrame hmem2.after).dmem (by decide)]
  rw [hcell, show s.cell c = a.cell c by rw [State.cell, State.cell, hbefore]] at hne
  rw [hcell]
  obtain rfl | rfl | ⟨hf, hp⟩ := runUnit_latch_inv (by decide) hmem2.unit
  · exact absurd rfl hne
  · exact absurd rfl hne
  rw [hmem2.content] at hp
  obtain ⟨v, hshape⟩ | ⟨i, hc, hstore, hrange, hshape⟩ | ⟨i, -, -, -, hshape⟩ := performContent_mem2_shape _ _ <;>
    obtain rfl := next_unique hp hshape
  · exact absurd rfl hne
  · have hlatch : a.L.mem2 = s.L.mem2 := hmem2.latch
    have hwrite := cell_setCell (a.setIsEmpty .mem2 false) a.L.mem2.memAddress a.L.mem2.rs1Value c (hbefore ▸ hwf)
    have hsel : a.L.mem2.memAddress = c := by
      by_contra hdiff
      exact hne (hwrite.trans (if_neg hdiff))
    rw [if_pos hsel] at hwrite
    refine ⟨i, ⟨hmem2.fresh.symm.trans hf, hc⟩, hstore, hlatch ▸ hsel.symm, ?_, hlatch ▸ hwrite⟩
    have hrange : a.L.mem2.memAddress.toNat < a.launch.dmemCells := hrange
    rwa [hsel, hmem2.launch] at hrange
  · exact absurd rfl hne

/-! ### The clock and the end of the run -/

theorem reconcile_keeps (hm : runUnits unitOrder s.beginCycle = .next m) :
    m.reconcile.runState = m.runState ∧ m.reconcile.outcome = m.outcome ∧ m.reconcile.clock = m.clock ∧
      m.reconcile.stopReq = m.stopReq := by
  obtain ⟨-, -, h⟩ | ⟨-, -, h⟩ | ⟨-, -, h⟩ | ⟨-, -, h⟩ := reconcile_cases m (flush_excludes_halt hm) <;> rw [h] <;>
    exact ⟨rfl, rfl, rfl, rfl⟩

/-- Settles O56: the units leave the clock alone, and the end of the cycle counts exactly where it does not stop. -/
theorem clockCountsCyclesThatDoNotStop : Obligations.ClockCountsCyclesThatDoNotStop := by
  unfold Obligations.ClockCountsCyclesThatDoNotStop
  intro s t hc h
  obtain ⟨m, hm, rfl⟩ := step_of_cycleNext hc h
  have hclock : m.clock = s.clock := (runUnits_unitsFrame hm).clock
  obtain hr | hr := stopped_or_running m
  · rw [finishCycle_stopped hr]
    exact ⟨fun h => absurd (hr.symm.trans h) (by decide), fun _ => hclock⟩
  · obtain ⟨hrun, -, hkeep, -⟩ := reconcile_keeps hm
    rw [finishCycle_running hr]
    obtain ⟨-, hend⟩ | ⟨-, hend⟩ | ⟨-, hend⟩ := endCycle_cases m.reconcile <;> rw [hend]
    · exact ⟨(nomatch ·), fun _ => hkeep.trans hclock⟩
    · exact ⟨(nomatch ·), fun _ => hkeep.trans hclock⟩
    · exact ⟨fun _ => congrArg (· + 1) (hkeep.trans hclock), fun h => absurd ((hrun.trans hr).symm.trans h) (by decide)⟩

theorem launchOk_of_cycleNext (hc : s.CycleNext) : s.launchOk = true := hc.2.1

/-- Settles O57: WB raises first, and nothing runs after it. -/
theorem illegalWordInWritebackEndsTheRun : Obligations.IllegalWordInWritebackEndsTheRun := by
  unfold Obligations.IllegalWordInWritebackEndsTheRun
  intro s hc hf hill
  obtain ⟨t, h⟩ := (everyStepCompletes s).1 (launchOk_of_cycleNext hc)
  obtain ⟨m, hm, rfl⟩ := step_of_cycleNext hc h
  obtain ⟨b, hwb, hrest⟩ := andThen_eq_next hm
  have hb : b = afterRaise (s.beginCycle.setIsEmpty .wb false) .wb
      (.illegalInstruction s.L.wb.pc s.L.wb.fields.op s.L.wb.fields.resv) := by
    obtain ⟨hf', -⟩ | ⟨i, ⟨-, hi⟩, -⟩ | ⟨-, hb⟩ | ⟨⟨-, hend⟩, -⟩ := wb_in_cycle hc.1 hwb
    · exact absurd (hf.symm.trans hf') (by decide)
    · cases hill.symm.trans hi
    · exact hb
    · cases hill.symm.trans hend
  subst hb
  obtain rfl := next_unique hrest (runUnits_stopped _ rfl)
  exact ⟨_, h, rfl, rfl, rfl, rfl, rfl, rfl, rfl, rfl⟩

/-- MEM2 raises for the access it holds alone (R202). -/
theorem mem2_raise {us vs : List Stage} (hu : UnitInCycle .mem2 us vs s a b m) (ha : a.runState = .running)
    (hb : b.runState = .stopped) :
    ∃ i, Holds s .mem2 i ∧ AccessesMemory i.cls ∧ s.launch.dmemCells ≤ s.L.mem2.memAddress.toNat ∧
      m.outcome = .fault (.dataOutOfRange s.L.mem2.pc s.L.mem2.memAddress) := by
  have hlatch : a.L.mem2 = s.L.mem2 := hu.latch
  have hmb := next_unique hu.after (runUnits_stopped vs hb)
  obtain rfl | rfl | ⟨hf, hp⟩ := runUnit_latch_inv (by decide) hu.unit
  · exact absurd (ha.symm.trans hb) (by decide)
  · exact absurd (ha.symm.trans hb) (by decide)
  rw [hu.content] at hp
  obtain ⟨hr, -⟩ | ⟨-, ⟨⟨hwb, -⟩, -⟩ | ⟨⟨-, i, hc, hi, hrange⟩, ho⟩ | ⟨⟨hff, -⟩, -⟩⟩ := performContent_run _ hp
  · exact absurd (ha.symm.trans (hr.symm.trans hb)) (by decide)
  · cases hwb
  · have hrange : a.launch.dmemCells ≤ a.L.mem2.memAddress.toNat := hrange
    have ho : b.outcome = .fault (.dataOutOfRange a.L.mem2.pc a.L.mem2.memAddress) := ho
    rw [hlatch, hu.launch] at hrange
    rw [hlatch] at ho
    exact ⟨i, ⟨hu.fresh.symm.trans hf, hc⟩, hi, hrange, hmb ▸ ho⟩
  · cases hff

/-- Once WB has run without a raise, a fault that ends the cycle is that of MEM2 or of Fetch (R206). -/
theorem later_units_fault (hm : runUnits unitOrder s.beginCycle = .next m) (hwb : runUnit .wb s.beginCycle = .next a)
    (ha : a.runState = .running) (hstop : m.runState = .stopped) : LaterUnitFaults s m := by
  obtain ⟨a', b, hmem2⟩ := unit_in_cycle (u := .mem2) [.wb] [.mem1, .ex2, .ex1, .drf, .f] hm rfl (by decide)
  obtain rfl : a' = a := next_unique hmem2.before (by rw [runUnits, hwb]; rfl)
  obtain hb | hb := stopped_or_running b
  · obtain ⟨i, hi, hacc, hrange, ho⟩ := mem2_raise hmem2 ha hb
    exact .inl ⟨i, _, hi, hacc, rfl, hrange, ho⟩
  · obtain ⟨k, hmid, hlast⟩ := runUnits_append_eq_next (us := [.mem1, .ex2, .ex1, .drf]) hmem2.after
    obtain ⟨m', hf, hnil⟩ := andThen_eq_next hlast
    obtain rfl := Host.Outcome.next.inj hnil
    have hmidf := runUnits_unitsFrame hmid
    have hunit := runUnit_unitsFrame hmem2.unit
    have hk : k.runState = .running := (hmidf.runState (by decide) (by decide) (by decide)).trans hb
    have hpc : k.pc = s.pc := (hmidf.pc (by decide)).trans
      ((hunit.pc (by decide)).trans ((runUnits_unitsFrame hmem2.before).pc (by decide)))
    have hok : k.codeAddrOk k.pc = s.codeAddrOk s.pc := by
      rw [hpc, codeAddrOk_congr (hmidf.launch.trans (hunit.launch.trans hmem2.launch))]
    obtain rfl | hp := runUnit_f_inv hf
    · exact absurd (hk.symm.trans hstop) (by decide)
    obtain ⟨hr, -⟩ | ⟨-, ⟨⟨hw, -⟩, -⟩ | ⟨⟨hw, -⟩, -⟩ | ⟨⟨-, hbad⟩, ho⟩⟩ := performContent_run _ hp
    · exact absurd (hk.symm.trans (hr.symm.trans hstop)) (by decide)
    · cases hw
    · cases hw
    · exact .inr ⟨hok ▸ hbad, hpc ▸ ho⟩

/-- A stop request that WB makes ends the run, unless a later unit raises (R129, R206). -/
theorem stop_requested (hm : runUnits unitOrder s.beginCycle = .next m) (hwb : runUnit .wb s.beginCycle = .next a)
    (ha : a.runState = .running) :
    (m.runState = .running ∧ m.reconcile.stopReq = a.stopReq) ∨
      (m.finishCycle.runState = .stopped ∧ LaterUnitFaults s m.finishCycle) := by
  obtain hr | hr := stopped_or_running m
  · have hfin : m.finishCycle = m := finishCycle_stopped hr
    rw [hfin]
    exact .inr ⟨hr, later_units_fault hm hwb ha hr⟩
  · obtain ⟨-, -, -, hkeep⟩ := reconcile_keeps hm
    obtain ⟨b, hb, hrest⟩ := andThen_eq_next hm
    obtain rfl := next_unique hb hwb
    exact .inl ⟨hr, hkeep.trans ((runUnits_unitsFrame hrest).stopReq (by decide))⟩

/-- Settles O58: WB asks for the stop, no later unit changes the request, and the end of the cycle carries it out. -/
theorem haltAndEndStopTheRun : Obligations.HaltAndEndStopTheRun := by
  unfold Obligations.HaltAndEndStopTheRun
  intro s t hc hf h
  obtain ⟨m, hm, rfl⟩ := step_of_cycleNext hc h
  obtain ⟨a, hwb, -⟩ := andThen_eq_next hm
  constructor
  · intro hhalt
    obtain ⟨hf', -⟩ | ⟨i, ⟨-, hi⟩, ha⟩ | ⟨⟨-, hill⟩, -⟩ | ⟨⟨-, hend⟩, -⟩ := wb_in_cycle hc.1 hwb
    · exact absurd (hf.symm.trans hf') (by decide)
    · obtain rfl := Content.instr.inj (hhalt.symm.trans hi)
      obtain ⟨hr, hstop⟩ | ⟨hr, hfault⟩ := stop_requested hm hwb (by rw [ha]; exact hc.1)
      · rw [ha] at hstop
        rw [finishCycle_running hr, State.endCycle, hstop]
        exact ⟨rfl, .inl rfl⟩
      · exact ⟨hr, .inr hfault⟩
    · cases hhalt.symm.trans hill
    · cases hhalt.symm.trans hend
  · intro hdrain
    obtain ⟨hf', -⟩ | ⟨i, ⟨-, hi⟩, -⟩ | ⟨⟨-, hill⟩, -⟩ | ⟨-, ha⟩ := wb_in_cycle hc.1 hwb
    · exact absurd (hf.symm.trans hf') (by decide)
    · cases hdrain.symm.trans hi
    · cases hdrain.symm.trans hill
    · obtain ⟨hr, hstop⟩ | ⟨hr, hfault⟩ := stop_requested hm hwb (by rw [ha]; exact hc.1)
      · rw [ha] at hstop
        rw [finishCycle_running hr, State.endCycle, hstop]
        exact ⟨rfl, .inl rfl⟩
      · exact ⟨hr, .inr hfault⟩

/-! ### Handing on within a cycle -/

/-- A fresh content is handed on by its unit, where the cycle raises no fault (R102, R103). -/
theorem UnitInCycle.handedOn {us vs : List Stage} {d : Stage} (h : UnitInCycle u us vs s a b m) (hu : u ≠ .f)
    (hd : u.downstream = some d) (hm : m.runState = .running) (hf : (s.latch u).fresh u = true)
    (hstall : u = .drf → b.L.drf.stalled = false) : HandedOn u d (s.latch u) b := by
  obtain ⟨ha, hb⟩ := h.running hm
  have hon := performContent_handedOn _ hu hd (h.performs hu ha hf) hb hstall
  have hlatch : (a.setIsEmpty u false).latch u = { s.latch u with isEmpty := false } := by
    rw [latch_setIsEmpty, if_pos rfl, h.latch]
  rw [hlatch] at hon
  exact ⟨hon.pc, hon.fields, hon.done, hon.own⟩

theorem upstream_of_downstream {p d : Stage} (h : p.downstream = some d) : d.upstream = some p := by
  revert h
  cases p <;> cases d <;> decide

/-- A content handed on is fresh downstream (R103). -/
theorem HandedOn.fresh {p d : Stage} {l : Latch} (h : HandedOn p d l t) (hd : p.downstream = some d) (hl : l.pc ≠ 0) :
    (t.latch d).fresh d = true := by
  simpa [Latch.fresh, upstream_of_downstream hd, h.done, h.pc] using hl

/-- A fresh latch is not empty (R29, R30). -/
theorem pc_ne_zero_of_fresh {l : Latch} (h : l.fresh u = true) : l.pc ≠ 0 := by
  intro hpc
  exact absurd (h.symm.trans (not_fresh_of_empty u l hpc)) (by decide)

/-- A unit leaves nothing fresh in its own latch, unless it raises or stalls (R102, R104, R119). -/
theorem UnitInCycle.not_fresh {us vs : List Stage} {v : Stage} (h : UnitInCycle v us vs s a b m) (hv : v ≠ .f)
    (hm : m.runState = .running) (hstall : v = .drf → b.L.drf.stalled = false) : (b.latch v).fresh v = false := by
  obtain ⟨ha, hb⟩ := h.running hm
  cases hf : (s.latch v).fresh v with
  | false =>
    obtain rfl := h.idle hv ha hf
    rw [latch_setIsEmpty, if_pos rfl]
    exact (congrArg (Latch.fresh v) h.latch).trans hf
  | true =>
    cases hd : v.downstream with
    | some d => exact (h.handedOn hv hd hm hf hstall).own
    | none =>
      obtain rfl : v = .wb := by cases v <;> simp_all [Stage.downstream]
      have hp := h.performs hv ha hf
      have hdone : b.L.wb.done = some .wb := by
        cases hc : s.content (s.latch .wb) with
        | instr i =>
          rw [hc] at hp
          obtain rfl := next_unique hp (exec_in_wb i _)
          rfl
        | illegal =>
          rw [hc] at hp
          obtain rfl := next_unique hp (performContent_wb_illegal _)
          cases hb
        | endOfCode =>
          rw [hc] at hp
          obtain rfl := next_unique hp (performContent_wb_endOfCode _)
          rfl
      exact not_fresh_of_own_mark _ _ hdone

/-- In the units before Fetch, without a raise, a fresh content from EX1 down moves one stage down (R103). -/
theorem moves_down {k : State} {d : Stage} (h : runUnits [.wb, .mem2, .mem1, .ex2, .ex1, .drf] s.beginCycle = .next k)
    (hk : k.runState = .running)
    (hud : (u = .ex1 ∧ d = .ex2) ∨ (u = .ex2 ∧ d = .mem1) ∨ (u = .mem1 ∧ d = .mem2) ∨ (u = .mem2 ∧ d = .wb))
    (hf : (s.latch u).fresh u = true) :
    (k.latch d).fresh d = true ∧ (k.latch d).pc = (s.latch u).pc ∧ (k.latch d).fields = (s.latch u).fields := by
  have hmoved {n : State} (hd : u.downstream = some d) (hon : HandedOn u d (s.latch u) n) (hkeep : k.latch d = n.latch d) :
      (k.latch d).fresh d = true ∧ (k.latch d).pc = (s.latch u).pc ∧ (k.latch d).fields = (s.latch u).fields := by
    rw [hkeep]
    exact ⟨hon.fresh hd (pc_ne_zero_of_fresh hf), hon.pc, hon.fields⟩
  obtain ⟨rfl, rfl⟩ | ⟨rfl, rfl⟩ | ⟨rfl, rfl⟩ | ⟨rfl, rfl⟩ := hud
  · obtain ⟨a, b, hu⟩ := unit_in_cycle (u := .ex1) [.wb, .mem2, .mem1, .ex2] [.drf] h rfl (by decide)
    exact hmoved rfl (hu.handedOn (by decide) rfl hk hf nofun) ((runUnits_unitsFrame hu.after).latch .ex2 (by decide))
  · obtain ⟨a, b, hu⟩ := unit_in_cycle (u := .ex2) [.wb, .mem2, .mem1] [.ex1, .drf] h rfl (by decide)
    exact hmoved rfl (hu.handedOn (by decide) rfl hk hf nofun) ((runUnits_unitsFrame hu.after).latch .mem1 (by decide))
  · obtain ⟨a, b, hu⟩ := unit_in_cycle (u := .mem1) [.wb, .mem2] [.ex2, .ex1, .drf] h rfl (by decide)
    exact hmoved rfl (hu.handedOn (by decide) rfl hk hf nofun) ((runUnits_unitsFrame hu.after).latch .mem2 (by decide))
  · obtain ⟨a, b, hu⟩ := unit_in_cycle (u := .mem2) [.wb] [.mem1, .ex2, .ex1, .drf] h rfl (by decide)
    exact hmoved rfl (hu.handedOn (by decide) rfl hk hf nofun) ((runUnits_unitsFrame hu.after).latch .wb (by decide))

/-- Settles O52: what has moved down before Fetch stays there, Fetch and the end of the cycle touching none of MEM1, MEM2 and
WB. -/
theorem instructionsMoveDownEachCycle : Obligations.InstructionsMoveDownEachCycle := by
  unfold Obligations.InstructionsMoveDownEachCycle
  intro u d s t hc hud hf h hno
  obtain ⟨m, hm, hr, rfl⟩ := cycle_of_no_fault hc h hno
  obtain ⟨k, hk, hfetch⟩ := runUnits_append_eq_next (us := [.wb, .mem2, .mem1, .ex2, .ex1, .drf]) hm
  have hmoved := moves_down hk (running_of_runUnits hfetch hr) (.inr hud) hf
  have hend := finishCycle_frame hm
  rw [finishCycle_running hr] at hend
  have hframe := runUnits_unitsFrame hfetch
  have hkeep : m.reconcile.endCycle.latch d = k.latch d := by
    obtain ⟨-, rfl⟩ | ⟨-, rfl⟩ | ⟨-, rfl⟩ := hud
    · exact hend.mem1.trans (hframe.latch .mem1 (by decide))
    · exact hend.mem2.trans (hframe.latch .mem2 (by decide))
    · exact hend.wb.trans (hframe.latch .wb (by decide))
  rw [hkeep]
  exact hmoved

/-! ### The empty pipeline -/

/-- Units without a fresh latch change display flags alone (R104, R133). -/
theorem runUnits_idle {us : List Stage} (hus : .f ∉ us) (hr : s.runState = .running)
    (hf : ∀ u ∈ us, (s.S0.get u).fresh u = false) (h : runUnits us s = .next t) :
    ∃ L w, t = { s with L := L, unit := w } ∧ ∀ v, ∃ b, L.get v = { s.latch v with isEmpty := b } := by
  induction us generalizing s with
  | nil => exact ⟨s.L, s.unit, (Host.Outcome.next.inj h).symm, fun v => ⟨_, rfl⟩⟩
  | cons u us ih =>
    obtain ⟨n, hn, hrest⟩ := andThen_eq_next h
    have hu : u ≠ .f := fun hu => hus (hu ▸ .head us)
    obtain rfl := runUnit_idle hu hr (hf u (.head us)) hn
    obtain ⟨L, w, rfl, hL⟩ := ih (s := ({ s with unit := u } : State).setIsEmpty u true) (fun h => hus (.tail u h)) hr
      (fun v hv => hf v (.tail u hv)) hrest
    refine ⟨L, w, rfl, fun v => ?_⟩
    obtain ⟨b, hb⟩ := hL v
    have hset := latch_setIsEmpty { s with unit := u } u v true
    by_cases huv : u = v
    · subst huv
      rw [if_pos rfl] at hset
      rw [hset] at hb
      exact ⟨b, hb⟩
    · rw [if_neg huv] at hset
      rw [hset] at hb
      exact ⟨b, hb⟩

/-- Without a signal, the end of a cycle advances the clock and does nothing else (R128, R129). -/
theorem finishCycle_quiet (hr : s.runState = .running) (hp : s.flushPending = false) (ht : s.flushTarget = 0)
    (hh : s.haltSev = .none) (hq : s.stopReq = .none) : s.finishCycle = { s with clock := s.clock + 1 } := by
  have hrec : s.reconcile = s := by
    obtain ⟨-, -, h⟩ | ⟨h, -⟩ | ⟨-, h, -⟩ | ⟨-, h, -⟩ := reconcile_cases s fun _ => hh
    · rw [h, ← hp, ← ht, ← hh]
    · exact absurd (hp.symm.trans h) (by decide)
    · cases hh.symm.trans h
    · cases hh.symm.trans h
  have hfin : s.finishCycle = s.reconcile.endCycle := finishCycle_running hr
  rw [hfin, hrec]
  obtain ⟨h, -⟩ | ⟨h, -⟩ | ⟨-, h⟩ := endCycle_cases s
  · cases hq.symm.trans h
  · cases hq.symm.trans h
  · exact h

/-- Settles O37: the units from WB to DRF have nothing to perform, Fetch fetches, and no signal is raised. -/
theorem stepFromAnEmptyPipelineFetches : Obligations.StepFromAnEmptyPipelineFetches := by
  unfold Obligations.StepFromAnEmptyPipelineFetches
  rintro i s hc ⟨hstall, hempty⟩ ⟨hok, ha, hd⟩
  obtain ⟨t, h⟩ := (everyStepCompletes s).1 (launchOk_of_cycleNext hc)
  obtain ⟨m, hm, rfl⟩ := step_of_cycleNext hc h
  obtain ⟨k, hidle, hlast⟩ := runUnits_append_eq_next (us := [.wb, .mem2, .mem1, .ex2, .ex1, .drf]) hm
  obtain ⟨m', hfetch, hnil⟩ := andThen_eq_next hlast
  obtain rfl := Host.Outcome.next.inj hnil
  obtain ⟨L, w, rfl, hL⟩ := runUnits_idle (s := s.beginCycle) (us := [.wb, .mem2, .mem1, .ex2, .ex1, .drf]) (by decide) hc.1
    (fun u hu => hempty u (ne_of_mem_of_not_mem hu (by decide))) hidle
  have hdrf : L.drf.stalled = false := by
    obtain ⟨b, hb⟩ := hL .drf
    have hb : L.drf = { s.L.drf with isEmpty := b } := hb
    rw [hb]
    exact hstall
  obtain ⟨hbase, hgrid⟩ := (codeAddrOk_iff s s.pc).mp hok
  have hexec := (performContent_f (.instr i) { s.beginCycle with L := L, unit := w }).trans
    (congrArg _ (fetch_in_program { s.beginCycle with L := L, unit := w } hdrf hbase hgrid ha))
  have hfetch := (runUnit_fetch { s.beginCycle with L := L, unit := w } hc.1).symm.trans hfetch
  obtain rfl := next_unique hfetch ((performContent_f _ { s.beginCycle with L := L, unit := w }).trans
    (congrArg _ (fetch_in_program { s.beginCycle with L := L, unit := w } hdrf hbase hgrid ha)))
  have hfin := finishCycle_quiet (s := afterFetch { s.beginCycle with L := L, unit := w } (splitWord (s.imemAt s.pc)))
    hc.1 rfl rfl rfl rfl
  exact ⟨_, _, hexec, rfl, rfl, rfl, rfl, h.trans (congrArg _ hfin), rfl, rfl, rfl, rfl, rfl, rfl, rfl⟩

end Sys2Proof.Machine

/-!
# Control transfers within a cycle (spec 40_pipeline.md sections 5, 7, 9; 44_control.md)

Which signal a cycle raises is told by its occupants: a flush by the transfer in EX2, a halt by an uncontended HALT in DRF or
EX2. Reconciliation carries the one signal out.
-/

namespace Sys2Proof.Machine

open Sys2Proof.Claims

variable {s t a b m k : State} {u : Stage}

/-! ### Occupants at the start of the cycle -/

theorem branchyIn_iff (s : State) (u : Stage) :
    BranchyIn s u ↔ (s.latch u).fresh u = true ∧ (s.cls (s.latch u)).branchy = true := by
  constructor
  · rintro ⟨i, ⟨hf, hc⟩, hb⟩
    exact ⟨hf, by rw [State.cls, hc]; exact hb⟩
  · rintro ⟨hf, hb⟩
    cases hc : s.content (s.latch u) with
    | instr i => exact ⟨i, ⟨hf, hc⟩, by rwa [State.cls, hc] at hb⟩
    | illegal | endOfCode =>
      rw [State.cls, hc] at hb
      cases hb

/-- The contention checks of a cycle look at its start-of-cycle latches (R112, R118). -/
theorem branchyAt_iff_branchyIn (hl : a.launch = s.launch) (hi : a.imem = s.imem) (hS : a.S0 = s.L) (v : Stage) :
    a.branchyAt v = true ↔ BranchyIn s v := by
  rw [branchyAt_iff, branchyIn_iff, hS, cls_congr hl hi]
  rfl

theorem not_contended_iff (hl : a.launch = s.launch) (hi : a.imem = s.imem) (hS : a.S0 = s.L) (v w : Stage) :
    (a.branchyAt v || a.branchyAt w) = false ↔ ¬ BranchyIn s v ∧ ¬ BranchyIn s w := by
  rw [Bool.or_eq_false_iff, ← Bool.not_eq_true, ← Bool.not_eq_true, branchyAt_iff_branchyIn hl hi hS,
    branchyAt_iff_branchyIn hl hi hS]

/-! ### The flush of a transfer in EX2 -/

/-- The CC that EX2 reads is the one WB leaves (R132). -/
theorem cc_before_ex2 (hr : s.runState = .running) (h : runUnits [.wb, .mem2, .mem1] s.beginCycle = .next a)
    (ha : a.runState = .running) : a.readX ccSlot = ccAtEx2 s := by
  obtain ⟨w, hwb, hrest⟩ := andThen_eq_next h
  have hx : a.readX ccSlot = w.readX ccSlot := by
    rw [State.readX, State.readX, (runUnits_unitsFrame hrest).x (by decide)]
  have hw := running_of_runUnits hrest ha
  rw [hx]
  obtain ⟨hf, rfl⟩ | ⟨i, ⟨hf, hc⟩, rfl⟩ | ⟨-, rfl⟩ | ⟨⟨hf, hc⟩, rfl⟩ := wb_in_cycle hr hwb
  · have hcc : ccAtEx2 s = s.readX ccSlot := if_neg (by simp [hf])
    rw [hcc]
    rfl
  · have hfile := wbFile_readX (s.beginCycle.setIsEmpty .wb false) i ccSlot
    have hcls : s.cls s.L.wb = i.cls := by rw [State.cls, show s.content s.L.wb = _ from hc]; rfl
    by_cases harith : i.cls = .arith
    · rw [if_pos ⟨harith, rfl⟩] at hfile
      exact hfile.trans (if_pos (show s.L.wb.fresh .wb = true ∧ s.cls s.L.wb = .arith from ⟨hf, hcls.trans harith⟩)).symm
    · have hdest : ¬ ∃ rd, i.dest = some rd ∧ regSlot rd = ccSlot := fun ⟨rd, _, hrd⟩ => regSlot_ne_cc rd hrd
      rw [if_neg (fun h => harith h.1), if_neg hdest] at hfile
      have hcc : ccAtEx2 s = s.readX ccSlot := if_neg fun h => harith (hcls.symm.trans h.2)
      rw [hcc]
      exact hfile
  · cases hw
  · have hcc : ccAtEx2 s = s.readX ccSlot := if_neg (by simp [State.cls, hc, Content.cls])
    rw [hcc]
    rfl

/-- The transfer that EX2 finds in its latch is that of the statements (R111). -/
theorem transferOf_eq_some_iff (hcc : a.readX ccSlot = ccAtEx2 s) (hpc : a.L.ex2.pc = s.L.ex2.pc)
    (hbuf : a.L.ex2.buffer = s.L.ex2.buffer) (hf : (s.latch .ex2).fresh .ex2 = true) (target : Word) :
    a.transferOf (s.content (s.latch .ex2)) = some target ↔ TransfersTo s target := by
  constructor
  · intro h
    unfold State.transferOf at h
    split at h
    · next imm hc =>
      obtain ⟨hone, ht⟩ := Option.ite_none_right_eq_some.mp h
      exact .inl ⟨imm, ⟨hf, hc⟩, hcc ▸ hone, by rw [← Option.some.inj ht, hpc]⟩
    · next imm hc =>
      obtain ⟨hzero, ht⟩ := Option.ite_none_right_eq_some.mp h
      exact .inr (.inl ⟨imm, ⟨hf, hc⟩, hcc ▸ hzero, by rw [← Option.some.inj ht, hpc]⟩)
    · next rs1 imm hc => exact .inr (.inr ⟨rs1, imm, ⟨hf, hc⟩, by rw [← Option.some.inj h, hbuf]⟩)
    · cases h
  · rintro (⟨imm, ⟨-, hc⟩, hone, rfl⟩ | ⟨imm, ⟨-, hc⟩, hzero, rfl⟩ | ⟨rs1, imm, ⟨-, hc⟩, rfl⟩) <;> rw [hc]
    · rw [State.transferOf, hcc, if_pos hone, hpc]
    · rw [State.transferOf, hcc, if_pos hzero, hpc]
    · rw [State.transferOf, hbuf]

/-- The two signals as EX2 leaves them, told by the start-of-cycle latches (R111, R112). -/
theorem ex2_in_cycle {vs : List Stage} (hr : s.runState = .running) (h : UnitInCycle .ex2 [.wb, .mem2, .mem1] vs s a b m)
    (hm : m.runState = .running) :
    (∃ target, TransfersTo s target ∧ ¬ Holds s .ex2 .halt ∧ b.flushPending = true ∧ b.flushTarget = target ∧
        b.haltSev = .none) ∨
      ((∀ target, ¬ TransfersTo s target) ∧ b.flushPending = false ∧
        ((Holds s .ex2 .halt ∧ ¬ BranchyIn s .ex1 ∧ ¬ BranchyIn s .drf) ∧ b.haltSev = .strong ∨
          ¬ (Holds s .ex2 .halt ∧ ¬ BranchyIn s .ex1 ∧ ¬ BranchyIn s .drf) ∧ b.haltSev = .none)) := by
  obtain ⟨ha, hb⟩ := h.running hm
  have hframe := runUnits_unitsFrame h.before
  have hflush : a.flushPending = false := hframe.flushPending (by decide)
  have hsev : a.haltSev = .none := hframe.haltSev (by decide) (by decide)
  have hlatch : a.L.ex2 = s.L.ex2 := h.latch
  cases hf : (s.latch .ex2).fresh .ex2 with
  | false =>
    have hnot {i : Instr} : ¬ Holds s .ex2 i := fun hi => absurd (hf.symm.trans hi.1) (by decide)
    obtain rfl := h.idle (by decide) ha hf
    refine .inr ⟨?_, hflush, .inr ⟨fun hh => hnot hh.1, hsev⟩⟩
    rintro target (⟨imm, hi, -⟩ | ⟨imm, hi, -⟩ | ⟨rs1, imm, hi, -⟩) <;> exact hnot hi
  | true =>
    have hcc := cc_before_ex2 hr h.before ha
    have htransfer := transferOf_eq_some_iff (a := a.setIsEmpty .ex2 false) hcc
      (congrArg Latch.pc hlatch :) (congrArg Latch.buffer hlatch :) hf
    have hcontend := not_contended_iff (a := a.setIsEmpty .ex2 false) h.launch h.imem h.S0 .ex1 .drf
    have hp := h.performs (by decide) ha hf
    obtain ⟨target, ht, hc, hshape⟩ | ⟨hc, hfree, hshape⟩ | ⟨ht, hc, hshape⟩ := performContent_ex2_shape _ _ <;>
      obtain rfl := next_unique hp hshape
    · exact .inl ⟨target, (htransfer target).mp ht, fun hh => hc hh.2, rfl, rfl, hsev⟩
    · refine .inr ⟨fun target ht => ?_, hflush, .inl ⟨⟨⟨hf, hc⟩, hcontend.mp hfree⟩, max_strong _⟩⟩
      have ht := (htransfer target).mpr ht
      rw [hc] at ht
      cases ht
    · refine .inr ⟨fun target h => ?_, hflush, .inr ⟨fun ⟨hh, hfree⟩ => ?_, hsev⟩⟩
      · cases ht.symm.trans ((htransfer target).mpr h)
      · exact absurd ((hcontend.mpr hfree).symm.trans (hc hh.2)) (by decide)

/-- A flush is pending at the end of the units exactly for a transfer in EX2, and to its target (R111). -/
theorem flush_in_cycle (hr : s.runState = .running) (h : runUnits unitOrder s.beginCycle = .next m)
    (hm : m.runState = .running) :
    (∃ target, TransfersTo s target ∧ m.flushPending = true ∧ m.flushTarget = target) ∨
      ((∀ target, ¬ TransfersTo s target) ∧ m.flushPending = false) := by
  obtain ⟨a, b, hu⟩ := unit_in_cycle (u := .ex2) [.wb, .mem2, .mem1] [.ex1, .drf, .f] h rfl (by decide)
  have hframe := runUnits_unitsFrame hu.after
  have hpending := hframe.flushPending (by decide)
  obtain ⟨target, ht, -, hf, htarget, -⟩ | ⟨hno, hf, -⟩ := ex2_in_cycle hr hu hm
  · exact .inl ⟨target, ht, hpending.trans hf, (hframe.flushTarget (by decide)).trans htarget⟩
  · exact .inr ⟨hno, hpending.trans hf⟩

/-- A transfer has one target. -/
theorem transfersTo_unique {p q : Word} (hp : TransfersTo s p) (hq : TransfersTo s q) : p = q := by
  have hcontent {i j : Instr} (hi : Holds s .ex2 i) (hj : Holds s .ex2 j) : i = j :=
    Content.instr.inj (hi.2.symm.trans hj.2)
  obtain ⟨i, hi, -, rfl⟩ | ⟨i, hi, -, rfl⟩ | ⟨r, i, hi, rfl⟩ := hp <;>
    obtain ⟨j, hj, -, rfl⟩ | ⟨j, hj, -, rfl⟩ | ⟨q, j, hj, rfl⟩ := hq <;>
    cases hcontent hi hj <;> rfl

/-! ### The halt of an uncontended HALT -/

/-- DRF of a HALT: the weak halt raised unless a branch or jump contends (R118). -/
theorem performContent_drf_halt (s : State) :
    performContent (.instr .halt) { s with unit := .drf } = .next (afterDrf { s with
      haltSev := if s.branchyAt .ex1 || s.branchyAt .ex2 then s.haltSev else s.haltSev.max .weak } s.L.drf) := by
  have h := drfHalt_in_drf s
  cases hb : s.branchyAt .ex1 || s.branchyAt .ex2
  · exact congrArg _ (h.trans (if_neg (Bool.eq_false_iff.mp hb)))
  · exact congrArg _ (h.trans (if_pos hb))

/-- The halt pending at the end of the units: the strong one of EX2, else the weak one of DRF, else none (R112, R118). -/
theorem halt_in_cycle (hr : s.runState = .running) (h : runUnits unitOrder s.beginCycle = .next m)
    (hm : m.runState = .running) :
    ((Holds s .ex2 .halt ∧ ¬ BranchyIn s .ex1 ∧ ¬ BranchyIn s .drf) ∧ m.haltSev = .strong) ∨
      ((Holds s .drf .halt ∧ ¬ BranchyIn s .ex1 ∧ ¬ BranchyIn s .ex2) ∧
        ¬ (Holds s .ex2 .halt ∧ ¬ BranchyIn s .ex1 ∧ ¬ BranchyIn s .drf) ∧ m.haltSev = .weak) ∨
      (¬ HaltRaised s ∧ m.haltSev = .none) := by
  obtain ⟨c, d, hdrf⟩ := unit_in_cycle (u := .drf) [.wb, .mem2, .mem1, .ex2, .ex1] [.f] h rfl (by decide)
  obtain ⟨a, b, hex2⟩ := unit_in_cycle (u := .ex2) [.wb, .mem2, .mem1] [.ex1] hdrf.before rfl (by decide)
  have hc : c.haltSev = b.haltSev := (runUnits_unitsFrame hex2.after).haltSev (by decide) (by decide)
  have hmd : m.haltSev = d.haltSev := (runUnits_unitsFrame hdrf.after).haltSev (by decide) (by decide)
  obtain ⟨hcrun, hdrun⟩ := hdrf.running hm
  have hcontend := not_contended_iff (a := c.setIsEmpty .drf false) hdrf.launch hdrf.imem hdrf.S0 .ex1 .ex2
  -- what DRF makes of the severity that EX2 left
  have hd : (Holds s .drf .halt ∧ ¬ BranchyIn s .ex1 ∧ ¬ BranchyIn s .ex2) ∧ d.haltSev = b.haltSev.max .weak ∨
      ¬ (Holds s .drf .halt ∧ ¬ BranchyIn s .ex1 ∧ ¬ BranchyIn s .ex2) ∧ d.haltSev = b.haltSev := by
    cases hf : (s.latch .drf).fresh .drf with
    | false =>
      obtain rfl := hdrf.idle (by decide) hcrun hf
      exact .inr ⟨fun hh => absurd (hf.symm.trans hh.1.1) (by decide), hc⟩
    | true =>
      have hp := hdrf.performs (by decide) hcrun hf
      by_cases hhalt : s.content (s.latch .drf) = .instr .halt
      · rw [hhalt] at hp
        have hsev := congrArg State.haltSev (next_unique hp (performContent_drf_halt _))
        cases hfree : (c.setIsEmpty .drf false).branchyAt .ex1 || (c.setIsEmpty .drf false).branchyAt .ex2
        · refine .inl ⟨⟨⟨hf, hhalt⟩, hcontend.mp hfree⟩, ?_⟩
          rw [← hc]
          exact hsev.trans (if_neg (Bool.eq_false_iff.mp hfree))
        · refine .inr ⟨fun hh => ?_, hc ▸ hsev.trans (if_pos hfree)⟩
          exact absurd ((hcontend.mpr hh.2).symm.trans hfree) (by decide)
      · exact .inr ⟨fun hh => hhalt hh.1.2, (performContent_haltSev hp hhalt).trans hc⟩
  have hb : ((Holds s .ex2 .halt ∧ ¬ BranchyIn s .ex1 ∧ ¬ BranchyIn s .drf) ∧ b.haltSev = .strong) ∨
      (¬ (Holds s .ex2 .halt ∧ ¬ BranchyIn s .ex1 ∧ ¬ BranchyIn s .drf) ∧ b.haltSev = .none) := by
    obtain ⟨target, -, hno, -, -, hsev⟩ | ⟨-, -, hsev⟩ := ex2_in_cycle hr hex2 hcrun
    · exact .inr ⟨fun hh => hno hh.1, hsev⟩
    · exact hsev
  obtain ⟨h2, hb⟩ | ⟨h2, hb⟩ := hb <;> obtain ⟨h1, hd⟩ | ⟨h1, hd⟩ := hd <;> rw [hb] at hd
  · exact .inl ⟨h2, hmd.trans hd⟩
  · exact .inl ⟨h2, hmd.trans hd⟩
  · exact .inr (.inl ⟨h1, h2, hmd.trans hd⟩)
  · exact .inr (.inr ⟨fun hraised => hraised.elim h1 h2, hmd.trans hd⟩)

/-! ### Reconciliation carries the signal out -/

/-- Fetch is the last unit; the pc it meets is that of the start of the cycle, and it hands off or leaves pc alone (R24,
R121 to R124). -/
theorem fetch_in_cycle (h : runUnits unitOrder s.beginCycle = .next m) :
    m.pc = s.pc ∨ m.runState = .running ∧ FetchHandsOff s ∧ m.pc = s.pc + 4 ∧ m.L.drf.pc = s.pc ∧
      m.L.drf.done = some .f := by
  obtain ⟨k, hk, hlast⟩ := runUnits_append_eq_next (us := [.wb, .mem2, .mem1, .ex2, .ex1, .drf]) h
  obtain ⟨m', hfetch, hnil⟩ := andThen_eq_next hlast
  obtain rfl := Host.Outcome.next.inj hnil
  have hframe := runUnits_unitsFrame hk
  have hpc : k.pc = s.pc := hframe.pc (by decide)
  have hcode : k.codeAddrOk k.pc = s.codeAddrOk s.pc := by
    rw [hpc, codeAddrOk_congr hframe.launch]
    rfl
  obtain hr | hr := stopped_or_running k
  · obtain rfl := next_unique hfetch (runUnit_stopped .f k hr)
    exact .inl hpc
  obtain rfl := next_unique hfetch ((runUnit_fetch k hr).trans (performContent_f _ k))
  cases hst : k.L.drf.stalled with
  | true => exact .inl (by rw [fetch_of_stalled hst]; exact hpc)
  | false =>
    cases hok : k.codeAddrOk k.pc with
    | false => exact .inl (by rw [fetch_of_not_codeAddrOk hst hok]; exact hpc)
    | true =>
      rw [fetch_of_codeAddrOk hst hok]
      exact .inr ⟨hr, ⟨hcode ▸ hok, k, hk, hr, hst⟩, congrArg (· + 4) hpc, hpc, rfl⟩

/-- The end of a cycle: the pc, the latches and the validity bits that it leaves. -/
structure EndsWith (t : State) (p : Word) (L : Latches) (v : Vector Bool 17) : Prop where
  pc : t.pc = p
  L : t.L = L
  valid : t.valid = v

/-- The end of the program is the same throughout a cycle (R61). -/
theorem endAddr_in_cycle (h : runUnits unitOrder s.beginCycle = .next m) : m.endAddr = s.endAddr :=
  endAddr_congr (runUnits_unitsFrame h).launch (runUnits_unitsFrame h).imem

/-- The four ends of a cycle, by the occupants of EX2 and DRF at its start: a transfer, a strong halt, a weak halt, or no
signal at all (R125 to R128). -/
theorem end_of_cycle (hr : s.runState = .running) (h : runUnits unitOrder s.beginCycle = .next m)
    (hm : m.runState = .running) :
    (∃ target, TransfersTo s target ∧ ¬ HaltRaised s ∧
        EndsWith m.reconcile.endCycle target m.L.emptyFour m.restoreValid.valid) ∨
      ((∀ target, ¬ TransfersTo s target) ∧
        (((Holds s .ex2 .halt ∧ ¬ BranchyIn s .ex1 ∧ ¬ BranchyIn s .drf) ∧
            EndsWith m.reconcile.endCycle (BitVec.ofNat 32 s.endAddr) m.L.emptyFour m.restoreValid.valid) ∨
          ((Holds s .drf .halt ∧ ¬ BranchyIn s .ex1 ∧ ¬ BranchyIn s .ex2) ∧
            ¬ (Holds s .ex2 .halt ∧ ¬ BranchyIn s .ex1 ∧ ¬ BranchyIn s .drf) ∧
            EndsWith m.reconcile.endCycle (BitVec.ofNat 32 s.endAddr) m.L.emptyFront m.valid) ∨
          (¬ HaltRaised s ∧ EndsWith m.reconcile.endCycle m.pc m.L m.valid))) := by
  obtain ⟨r, o, c, hend⟩ := endCycle_eq m.reconcile
  have hends {p : Word} {L : Latches} {v : Vector Bool 17} (hp : m.reconcile.pc = p) (hL : m.reconcile.L = L)
      (hv : m.reconcile.valid = v) : EndsWith m.reconcile.endCycle p L v := by
    rw [hend]
    exact ⟨hp, hL, hv⟩
  have haddr := congrArg (BitVec.ofNat 32) (endAddr_in_cycle h)
  have hhalt := halt_in_cycle hr h hm
  have hflush := flush_in_cycle hr h hm
  obtain ⟨hf, hs, hrec⟩ | ⟨hf, hs, hrec⟩ | ⟨hf, hs, hrec⟩ | ⟨hf, hs, hrec⟩ := reconcile_cases m (flush_excludes_halt h) <;>
    simp only [hf, hs, Bool.false_eq_true, reduceCtorEq, and_false, false_and, true_and, and_true, exists_false, false_or,
      or_false] at hhalt hflush
  · exact .inr ⟨hflush, .inr (.inr ⟨hhalt, hends (by rw [hrec]) (by rw [hrec]) (by rw [hrec])⟩)⟩
  · obtain ⟨target, ht, htarget⟩ := hflush
    exact .inl ⟨target, ht, hhalt, hends (by rw [hrec]; exact htarget) (by rw [hrec]) (by rw [hrec])⟩
  · exact .inr ⟨hflush, .inr (.inl ⟨hhalt.1, hhalt.2, hends (by rw [hrec]; exact haddr) (by rw [hrec]) (by rw [hrec])⟩)⟩
  · exact .inr ⟨hflush, .inl ⟨hhalt, hends (by rw [hrec]; exact haddr) (by rw [hrec]) (by rw [hrec])⟩⟩

/-- Settles O49: the transfer is carried out at the end of the cycle. -/
theorem takenTransfersFlushFourStages : Obligations.TakenTransfersFlushFourStages := by
  unfold Obligations.TakenTransfersFlushFourStages
  intro i target cc s t hc hi hcc htaken h hno
  have hcc : cc = ccAtEx2 s := by
    rw [hcc]
    simp [ccAtEx2]
  have htransfer : TransfersTo s target := by
    obtain ⟨imm, rfl, hone, ht⟩ | ⟨imm, rfl, hzero, ht⟩ | ⟨rs1, imm, rfl, ht⟩ := htaken
    · exact .inl ⟨imm, hi, hcc ▸ hone, ht⟩
    · exact .inr (.inl ⟨imm, hi, hcc ▸ hzero, ht⟩)
    · exact .inr (.inr ⟨rs1, imm, hi, ht⟩)
  obtain ⟨m, hm, hr, rfl⟩ := cycle_of_no_fault hc h hno
  obtain ⟨p, hp, -, hend⟩ | ⟨hnone, -⟩ := end_of_cycle hc.1 hm hr
  · obtain rfl := transfersTo_unique htransfer hp
    rw [hend.L]
    exact ⟨hend.pc, rfl, rfl, rfl, rfl⟩
  · exact absurd htransfer (hnone target)

/-- Settles O50: the halt raised is carried out at the end of the cycle. -/
theorem uncontendedHaltsRedirectToTheEnd : Obligations.UncontendedHaltsRedirectToTheEnd := by
  unfold Obligations.UncontendedHaltsRedirectToTheEnd
  intro s t hc h hno
  obtain ⟨m, hm, hr, rfl⟩ := cycle_of_no_fault hc h hno
  constructor
  · intro hhalt hex1 hex2
    obtain ⟨p, -, hnone, -⟩ | ⟨-, ⟨-, hend⟩ | ⟨-, -, hend⟩ | ⟨hnone, -⟩⟩ := end_of_cycle hc.1 hm hr
    · exact absurd (.inl ⟨hhalt, hex1, hex2⟩) hnone
    · rw [hend.L]
      exact ⟨hend.pc, rfl, rfl⟩
    · rw [hend.L]
      exact ⟨hend.pc, rfl, rfl⟩
    · exact absurd (.inl ⟨hhalt, hex1, hex2⟩) hnone
  · intro hhalt hex1 hdrf
    obtain ⟨p, -, hnone, -⟩ | ⟨-, ⟨-, hend⟩ | ⟨-, hnone, -⟩ | ⟨hnone, -⟩⟩ := end_of_cycle hc.1 hm hr
    · exact absurd (.inr ⟨hhalt, hex1, hdrf⟩) hnone
    · rw [hend.L]
      exact ⟨hend.pc, rfl, rfl, rfl, rfl⟩
    · exact absurd ⟨hhalt, hex1, hdrf⟩ hnone
    · exact absurd (.inr ⟨hhalt, hex1, hdrf⟩) hnone

/-- What EX1 leaves of an instruction with a destination: its bit is cleared, and `e1_done` holds the instruction (R32,
R113). -/
theorem ex1_in_cycle {j : Instr} {rd : Reg} (h : runUnits unitOrder s.beginCycle = .next m) (hm : m.runState = .running)
    (hj : Holds s .ex1 j) (hrd : j.dest = some rd) :
    m.readV (regSlot rd) = false ∧ ∃ l, m.e1Done = some l ∧ m.content l = .instr j := by
  obtain ⟨a, b, hu⟩ := unit_in_cycle (u := .ex1) [.wb, .mem2, .mem1, .ex2] [.drf, .f] h rfl (by decide)
  obtain ⟨ha, -⟩ := hu.running hm
  have hp := hu.performs (by decide) ha hj.1
  obtain ⟨v, w, hshape⟩ := performContent_ex1_shape (s.content (s.latch .ex1)) (a.setIsEmpty .ex1 false)
  obtain rfl := next_unique hp hshape
  have hframe := runUnits_unitsFrame hu.after
  have hunits := runUnits_unitsFrame h
  have hlatch : a.L.ex1 = s.L.ex1 := hu.latch
  refine ⟨?_, _, hframe.e1Done (by decide), ?_⟩
  · have hdest : (s.content (s.latch .ex1)).dest = some rd := by rw [hj.2]; exact hrd
    rw [State.readV, hframe.valid (by decide) (by decide)]
    exact (claim_readV _ _ _).trans (if_pos ⟨rd, hdest, rfl⟩)
  · rw [content_congr hunits.launch hunits.imem]
    calc s.content _ = s.content a.L.ex1 := rfl
      _ = .instr j := by rw [hlatch]; exact hj.2

/-- The restore re-validates the destination of the instruction in `e1_done`, under FLUSH_RESTORES_VALID (R127). -/
theorem restoreValid_readV {l : Latch} {j : Instr} {rd : Reg} (he : m.e1Done = some l) (hc : m.content l = .instr j)
    (hrd : j.dest = some rd) (hv : m.readV (regSlot rd) = false) :
    m.restoreValid.readV (regSlot rd) = m.launch.flushRestoresValid := by
  have hwrites : (m.cls l).writesRd = true := by
    rw [State.cls, hc]
    exact (writesRd_iff_dest j).mpr ⟨rd, hrd⟩
  have hfield : l.fields.rd = rd := rd_eq_dest (decode_of_content hc) hrd
  cases hflag : m.launch.flushRestoresValid <;> simp [State.restoreValid, he, hflag, hwrites, hfield, hv]

/-- Settles O51: EX1 claims the destination, and reconciliation restores it exactly under the parameter. -/
theorem discardedWriterIsRevalidatedIfConfigured : Obligations.DiscardedWriterIsRevalidatedIfConfigured := by
  unfold Obligations.DiscardedWriterIsRevalidatedIfConfigured
  intro j rd s t hc hj hrd hdiscard h hno
  obtain ⟨m, hm, hr, rfl⟩ := cycle_of_no_fault hc h hno
  obtain ⟨hv, l, he, hl⟩ := ex1_in_cycle hm hr hj hrd
  have hrestore : m.restoreValid.readV (regSlot rd) = s.launch.flushRestoresValid :=
    (restoreValid_readV he hl hrd hv).trans (congrArg _ (runUnits_unitsFrame hm).launch)
  have hnot : ¬ BranchyIn s .ex1 := by
    rintro ⟨i, hi, hb⟩
    obtain rfl := Content.instr.inj (hi.2.symm.trans hj.2)
    cases i <;> simp [Instr.dest, Instr.cls, InsnClass.branchy] at hrd hb
  obtain ⟨p, -, -, hend⟩ | ⟨hnone, ⟨-, hend⟩ | hweak⟩ := end_of_cycle hc.1 hm hr
  · rw [State.readV, hend.valid]
    exact hrestore
  · rw [State.readV, hend.valid]
    exact hrestore
  · obtain ⟨target, ht⟩ | ⟨hhalt, hdrf⟩ := hdiscard
    · exact absurd ht (hnone target)
    · obtain ⟨-, hno, -⟩ | ⟨hno, -⟩ := hweak
      · exact absurd ⟨hhalt, hnot, hdrf⟩ hno
      · exact absurd (.inr ⟨hhalt, hnot, hdrf⟩) hno

/-- Settles O59: Fetch and the end of the cycle alone write pc. -/
theorem pcChangesInThreeWays : Obligations.PcChangesInThreeWays := by
  unfold Obligations.PcChangesInThreeWays
  intro s t h hne
  obtain ⟨-, rfl⟩ | rfl | ⟨hc, m, hm, rfl⟩ := step_inv h
  · exact absurd rfl hne
  · exact absurd rfl hne
  refine ⟨hc, ?_⟩
  have hfetch := fetch_in_cycle hm
  obtain hr | hr := stopped_or_running m
  · rw [finishCycle_stopped hr] at hne
    obtain hpc | ⟨hrun, -⟩ := hfetch
    · exact absurd hpc hne
    · exact absurd (hrun.symm.trans hr) (by decide)
  have hfin : m.finishCycle = m.reconcile.endCycle := finishCycle_running hr
  rw [hfin] at hne ⊢
  obtain ⟨p, hp, -, hend⟩ | ⟨-, ⟨hhalt, hend⟩ | ⟨hhalt, -, hend⟩ | ⟨-, hend⟩⟩ := end_of_cycle hc.1 hm hr
  · exact .inr (.inl (hend.pc.symm ▸ hp))
  · exact .inr (.inr ⟨hend.pc, .inr hhalt⟩)
  · exact .inr (.inr ⟨hend.pc, .inl hhalt⟩)
  · obtain hpc | ⟨-, hoff, hpc, hdrf, hdone⟩ := hfetch
    · exact absurd (hend.pc.trans hpc) hne
    · rw [hend.L]
      exact .inl ⟨hend.pc.trans hpc, hoff, hdrf, hdone⟩

end Sys2Proof.Machine

/-!
# Reset, and the structural invariant (spec 10_state.md; 70_reset_and_hazards.md section 1)

Every unit keeps the part of `CoreInv` that holds in the middle of a cycle (`UnitInv`); what is left, the stall of DRF, the
signals and the clock, is told by the unit of DRF and by the end of the cycle.
-/

namespace Sys2Proof.Machine

open Sys2Proof.Claims

variable {s t m : State} {u : Stage}

/-! ### Reset -/

theorem reset_readX (i : Slot) : State.reset.readX i = 0 := by revert i; decide

theorem reset_readV (i : Slot) : State.reset.readV i = true := by revert i; decide

theorem reset_latch (u : Stage) : State.reset.latch u = Latch.reset := by cases u <;> rfl

/-- Settles O5: reset gives each of these values. -/
theorem resetLeavesTheSpecsValues : Obligations.ResetLeavesTheSpecsValues := by
  unfold Obligations.ResetLeavesTheSpecsValues
  exact ⟨reset_readX, reset_readV, rfl, fun _ => rfl, reset_latch, rfl, rfl, rfl, rfl, rfl, rfl, rfl, rfl, rfl⟩

/-- Settles O43: an empty memory, valid registers, empty latches and no signal. -/
theorem resetHasTheCoreInvariant : Obligations.ResetHasTheCoreInvariant where
  memoryCanonical := reset_dmem_wf
  memoryInRange := fun _ _ h => nomatch h
  ccIsBit := .inl (reset_readX ccSlot)
  ccValid := reset_readV ccSlot
  neverBusy := fun u => by rw [reset_latch]; rfl
  notStalledBelowDrf := fun u _ _ => by rw [reset_latch]; rfl
  stalledDrfFresh := fun h => nomatch h
  outcomeIffStopped := ⟨fun _ => rfl, fun _ => rfl⟩
  signalsCleared := fun _ => ⟨rfl, rfl, rfl⟩
  clockBounded := Nat.zero_le _

/-- Settles O45: no register is INVALID. -/
theorem resetHasTheWriterInFlightProperty : Obligations.ResetHasTheWriterInFlightProperty := by
  unfold Obligations.ResetHasTheWriterInFlightProperty
  intro i hi
  exact absurd ((reset_readV i).symm.trans hi) (by decide)

/-! ### The flags of the latches -/

/-- No latch is busy, and none from EX1 down is stalled (R28, R119, R134). -/
def Latches.FlagsOk (L : Latches) : Prop :=
  ∀ u, (L.get u).busy = false ∧ (u ≠ .f → u ≠ .drf → (L.get u).stalled = false)

theorem Latches.flagsOk_iff (L : Latches) :
    L.FlagsOk ↔ (L.f.busy = false ∧ L.drf.busy = false) ∧ (L.ex1.busy = false ∧ L.ex1.stalled = false) ∧
      (L.ex2.busy = false ∧ L.ex2.stalled = false) ∧ (L.mem1.busy = false ∧ L.mem1.stalled = false) ∧
      (L.mem2.busy = false ∧ L.mem2.stalled = false) ∧ (L.wb.busy = false ∧ L.wb.stalled = false) := by
  constructor
  · intro h
    have hdown (u : Stage) (hf : u ≠ .f) (hdrf : u ≠ .drf) := And.intro (h u).1 ((h u).2 hf hdrf)
    exact ⟨⟨(h .f).1, (h .drf).1⟩, hdown .ex1 (by decide) (by decide), hdown .ex2 (by decide) (by decide),
      hdown .mem1 (by decide) (by decide), hdown .mem2 (by decide) (by decide), hdown .wb (by decide) (by decide)⟩
  · rintro ⟨⟨hf, hdrf⟩, hex1, hex2, hmem1, hmem2, hwb⟩ u
    cases u with
    | f => exact ⟨hf, fun h => absurd rfl h⟩
    | drf => exact ⟨hdrf, fun _ h => absurd rfl h⟩
    | ex1 => exact ⟨hex1.1, fun _ _ => hex1.2⟩
    | ex2 => exact ⟨hex2.1, fun _ _ => hex2.2⟩
    | mem1 => exact ⟨hmem1.1, fun _ _ => hmem1.2⟩
    | mem2 => exact ⟨hmem2.1, fun _ _ => hmem2.2⟩
    | wb => exact ⟨hwb.1, fun _ _ => hwb.2⟩

theorem claim_L (s : State) (o : Option Reg) : (s.claim o).L = s.L := by rw [claim_eq]

theorem wbFile_L (s : State) (i : Instr) : (s.wbFile i).L = s.L := by rw [wbFile_eq]

/-- No unit sets a busy flag, and none but DRF a stall flag: F's and its own (R119, R134). -/
theorem performContent_flagsOk (c : Content) (h : performContent c { s with unit := u } = .next t) (hs : s.L.FlagsOk) :
    t.L.FlagsOk := by
  rw [Latches.flagsOk_iff] at hs ⊢
  obtain ⟨⟨hf, hdrf⟩, hex1, hex2, hmem1, hmem2, hwb⟩ := hs
  cases u with
  | f =>
    obtain rfl := next_unique (performContent_f c s) h
    obtain hm | hm | ⟨f, hm⟩ := fetch_in_f_cases s <;> rw [hm]
    · exact ⟨⟨hf, hdrf⟩, hex1, hex2, hmem1, hmem2, hwb⟩
    · exact ⟨⟨hf, hdrf⟩, hex1, hex2, hmem1, hmem2, hwb⟩
    · exact ⟨⟨rfl, rfl⟩, hex1, hex2, hmem1, hmem2, hwb⟩
  | drf =>
    obtain hm | ⟨q, a, b, d, -, hm⟩ := performContent_drf_shape c s <;> obtain rfl := next_unique hm h
    · exact ⟨⟨hf, hdrf⟩, hex1, hex2, hmem1, hmem2, hwb⟩
    · exact ⟨⟨hf, hdrf⟩, ⟨hdrf, rfl⟩, hex2, hmem1, hmem2, hwb⟩
  | ex1 =>
    obtain ⟨b, a, hm⟩ := performContent_ex1_shape c s
    obtain rfl := next_unique hm h
    rw [afterEx1, claim_L]
    exact ⟨⟨hf, hdrf⟩, hex1, hex1, hmem1, hmem2, hwb⟩
  | ex2 =>
    obtain ⟨a, -, -, hm⟩ | ⟨-, -, hm⟩ | ⟨-, -, hm⟩ := performContent_ex2_shape c s <;> obtain rfl := next_unique hm h <;>
      exact ⟨⟨hf, hdrf⟩, hex1, hex2, hex2, hmem2, hwb⟩
  | mem1 =>
    obtain rfl := next_unique (performContent_mem1 c s) h
    exact ⟨⟨hf, hdrf⟩, hex1, hex2, hmem1, hmem1, hwb⟩
  | mem2 =>
    obtain ⟨b, hm⟩ | ⟨i, -, -, -, hm⟩ | ⟨i, -, -, -, hm⟩ := performContent_mem2_shape c s <;> obtain rfl := next_unique hm h
    · exact ⟨⟨hf, hdrf⟩, hex1, hex2, hmem1, hmem2, hmem2⟩
    · exact ⟨⟨hf, hdrf⟩, hex1, hex2, hmem1, hmem2, hmem2⟩
    · exact ⟨⟨hf, hdrf⟩, hex1, hex2, hmem1, hmem2, hwb⟩
  | wb =>
    cases c with
    | instr i =>
      obtain rfl := next_unique (exec_in_wb i s) h
      rw [afterWb, wbFile_L]
      exact ⟨⟨hf, hdrf⟩, hex1, hex2, hmem1, hmem2, hwb⟩
    | illegal =>
      obtain rfl := next_unique (performContent_wb_illegal s) h
      exact ⟨⟨hf, hdrf⟩, hex1, hex2, hmem1, hmem2, hwb⟩
    | endOfCode =>
      obtain rfl := next_unique (performContent_wb_endOfCode s) h
      exact ⟨⟨hf, hdrf⟩, hex1, hex2, hmem1, hmem2, hwb⟩

theorem setIsEmpty_flagsOk (u v : Stage) (b : Bool) (hs : s.L.FlagsOk) :
    (({ s with unit := v } : State).setIsEmpty u b).L.FlagsOk := by
  intro w
  have h := latch_setIsEmpty { s with unit := v } u w b
  split at h
  · next huw =>
    rw [State.latch] at h
    rw [h]
    exact huw ▸ hs u
  · rw [State.latch] at h
    rw [h]
    exact hs w

/-! ### The memory and CC -/

/-- A unit keeps the memory canonical and within its cells: MEM2 writes a cell in range, and no other unit writes one (R26,
R202). -/
theorem performContent_dmem (c : Content) (h : performContent c { s with unit := u } = .next t)
    (hwf : s.dmem.wf = true) (hrange : s.CellsInRange) : t.dmem.wf = true ∧ t.CellsInRange := by
  have hframe := performContent_unitsFrame c h
  have hkeep (hd : t.dmem = s.dmem) : t.dmem.wf = true ∧ t.CellsInRange := by
    rw [State.CellsInRange, hd, hframe.launch]
    exact ⟨hwf, hrange⟩
  by_cases hu : u = .mem2
  · subst hu
    obtain ⟨b, hm⟩ | ⟨i, -, -, ha, hm⟩ | ⟨i, -, -, -, hm⟩ := performContent_mem2_shape c s <;> obtain rfl := next_unique hm h
    · exact hkeep rfl
    · refine ⟨setCell_wf s _ _ hwf, fun b w hmem => ?_⟩
      obtain rfl | hmem := DMem.mem_write _ _ _ _ _ hmem
      · exact ha
      · exact hrange b w hmem
    · exact hkeep rfl
  · exact hkeep (hframe.dmem (by simpa using Ne.symm hu))

/-- A unit keeps CC a bit and its slot VALID: WB alone writes CC, and no destination is CC's slot (R21, R22, R151). -/
theorem performContent_cc (c : Content) (h : performContent c { s with unit := u } = .next t)
    (hbit : s.readX ccSlot = 0 ∨ s.readX ccSlot = 1) (hvalid : s.readV ccSlot = true) :
    (t.readX ccSlot = 0 ∨ t.readX ccSlot = 1) ∧ t.readV ccSlot = true := by
  have hdest (o : Option Reg) : ¬ ∃ rd, o = some rd ∧ regSlot rd = ccSlot := fun ⟨rd, _, hrd⟩ => regSlot_ne_cc rd hrd
  have hframe := performContent_unitsFrame c h
  by_cases hwb : u = .wb
  · subst hwb
    cases c with
    | instr i =>
      obtain rfl := next_unique (exec_in_wb i s) h
      have hx := wbFile_readX s i ccSlot
      have hv := (wbFile_readV s i ccSlot).trans (if_neg (hdest i.dest))
      refine ⟨?_, hv.trans hvalid⟩
      change (s.wbFile i).readX ccSlot = 0 ∨ (s.wbFile i).readX ccSlot = 1
      rw [hx]
      by_cases harith : i.cls = .arith
      · rw [if_pos ⟨harith, rfl⟩]
        exact ccOf_bit _
      · rw [if_neg fun h => harith h.1, if_neg (hdest i.dest)]
        exact hbit
    | illegal =>
      obtain rfl := next_unique (performContent_wb_illegal s) h
      exact ⟨hbit, hvalid⟩
    | endOfCode =>
      obtain rfl := next_unique (performContent_wb_endOfCode s) h
      exact ⟨hbit, hvalid⟩
  · have hx : t.readX ccSlot = s.readX ccSlot := by
      rw [State.readX, State.readX, hframe.x (by simpa using Ne.symm hwb)]
    rw [hx]
    refine ⟨hbit, ?_⟩
    by_cases hex1 : u = .ex1
    · subst hex1
      obtain ⟨b, a, hm⟩ := performContent_ex1_shape c s
      obtain rfl := next_unique hm h
      exact ((claim_readV s c.dest ccSlot).trans (if_neg (hdest c.dest))).trans hvalid
    · rw [State.readV, hframe.valid (by simpa using Ne.symm hex1) (by simpa using Ne.symm hwb)]
      exact hvalid

/-! ### The invariant within a cycle -/

/-- The part of the structural invariant that every unit of a cycle keeps. -/
structure State.UnitInv (s : State) : Prop where
  memoryCanonical : s.dmem.wf = true
  memoryInRange : s.CellsInRange
  ccIsBit : s.readX ccSlot = 0 ∨ s.readX ccSlot = 1
  ccValid : s.readV ccSlot = true
  flags : s.L.FlagsOk
  outcome : s.runState = .running ↔ s.outcome = .none

theorem performContent_unitInv (c : Content) (h : performContent c { s with unit := u } = .next t) (hs : s.UnitInv) :
    t.UnitInv := by
  obtain ⟨hwf, hrange⟩ := performContent_dmem c h hs.memoryCanonical hs.memoryInRange
  obtain ⟨hbit, hvalid⟩ := performContent_cc c h hs.ccIsBit hs.ccValid
  refine ⟨hwf, hrange, hbit, hvalid, performContent_flagsOk c h hs.flags, ?_⟩
  obtain ⟨hr, ho⟩ | ⟨hr, hfault⟩ := performContent_run c h
  · rw [hr, ho]
    exact hs.outcome
  · obtain ⟨-, ho⟩ | ⟨-, ho⟩ | ⟨-, ho⟩ := hfault <;> simp [hr, ho]

theorem setIsEmpty_unitInv (u v : Stage) (b : Bool) (hs : s.UnitInv) :
    (({ s with unit := v } : State).setIsEmpty u b).UnitInv :=
  ⟨hs.memoryCanonical, hs.memoryInRange, hs.ccIsBit, hs.ccValid, setIsEmpty_flagsOk u v b hs.flags, hs.outcome⟩

theorem runUnit_unitInv (h : runUnit u s = .next t) (hs : s.UnitInv) : t.UnitInv := by
  by_cases hu : u = .f
  · subst hu
    obtain rfl | hp := runUnit_f_inv h
    · exact hs
    · exact performContent_unitInv _ hp hs
  · obtain rfl | rfl | ⟨-, hp⟩ := runUnit_latch_inv hu h
    · exact hs
    · exact setIsEmpty_unitInv u u true hs
    · exact performContent_unitInv (s := s.setIsEmpty u false) _ hp (setIsEmpty_unitInv u s.unit false hs)

theorem runUnits_unitInv {us : List Stage} (h : runUnits us s = .next t) (hs : s.UnitInv) : t.UnitInv :=
  runUnits_invariant (fun _ _ _ _ hrun hm => runUnit_unitInv hrun hm) h hs

/-! ### The stall of DRF -/

/-- At the end of the units a stalled DRF latch is fresh: DRF stalls its own fresh content, and Fetch hands over a latch that
is not stalled (R119, R121). -/
theorem stalledDrf_in_cycle (hs : s.L.drf.stalled = true → s.L.drf.fresh .drf = true)
    (h : runUnits unitOrder s.beginCycle = .next m) (hm : m.L.drf.stalled = true) : m.L.drf.fresh .drf = true := by
  obtain ⟨a, b, hu⟩ := unit_in_cycle (u := .drf) [.wb, .mem2, .mem1, .ex2, .ex1] [.f] h rfl (by decide)
  have hlatch : a.L.drf = s.L.drf := hu.latch
  have hb : b.L.drf.stalled = true → b.L.drf.fresh .drf = true := by
    obtain rfl | rfl | ⟨hf, hp⟩ := runUnit_latch_inv (by decide) hu.unit
    · rw [hlatch]
      exact hs
    · have hset : (({ a with unit := .drf } : State).setIsEmpty .drf true).L.drf = { s.L.drf with isEmpty := true } := by
        rw [← hlatch]
        rfl
      rw [hset]
      exact hs
    · rw [hu.fresh] at hf
      obtain hm | ⟨q, x, y, z, -, hm⟩ := performContent_drf_shape (a.content (a.latch .drf)) (a.setIsEmpty .drf false) <;>
        obtain rfl := next_unique hm hp
      · intro
        change Latch.fresh .drf { a.L.drf with isEmpty := false, stalled := true } = true
        rw [hlatch]
        exact hf
      · exact (nomatch ·)
  obtain ⟨m', hfetch, hnil⟩ := andThen_eq_next hu.after
  obtain rfl := Host.Outcome.next.inj hnil
  obtain rfl | hp := runUnit_f_inv hfetch
  · exact hb hm
  · obtain rfl := next_unique (performContent_f _ b) hp
    obtain hk | hk | ⟨f, hk⟩ := fetch_in_f_cases b <;> rw [hk] at hm ⊢
    · exact hb hm
    · exact hb hm
    · cases hm

/-! ### The end of the cycle -/

theorem Latches.FlagsOk.emptyFront {L : Latches} (h : L.FlagsOk) : L.emptyFront.FlagsOk := by
  rw [Latches.flagsOk_iff] at h ⊢
  exact h

theorem Latches.FlagsOk.emptyFour {L : Latches} (h : L.FlagsOk) : L.emptyFour.FlagsOk := by
  rw [Latches.flagsOk_iff] at h ⊢
  obtain ⟨hfront, ⟨hex1, -⟩, ⟨hex2, -⟩, hback⟩ := h
  exact ⟨hfront, ⟨hex1, rfl⟩, ⟨hex2, rfl⟩, hback⟩

theorem restoreValid_cc (s : State) : s.restoreValid.readV ccSlot = s.readV ccSlot := by
  obtain h | ⟨l, -, -, -, h⟩ := restoreValid_cases s <;> rw [h]
  rw [readV_writeV, if_neg (regSlot_ne_cc _)]

/-- Reconciliation keeps the validity of CC's slot, the flags of the latches and the freshness of a stalled DRF, and clears
the signals (R125 to R128). -/
theorem reconcile_inv (hx : s.flushPending = true → s.haltSev = .none) (hcc : s.readV ccSlot = true)
    (hflags : s.L.FlagsOk) (hdrf : s.L.drf.stalled = true → s.L.drf.fresh .drf = true) :
    s.reconcile.readV ccSlot = true ∧ s.reconcile.L.FlagsOk ∧
      (s.reconcile.L.drf.stalled = true → s.reconcile.L.drf.fresh .drf = true) ∧
      s.reconcile.flushPending = false ∧ s.reconcile.flushTarget = 0 ∧ s.reconcile.haltSev = .none := by
  have hrestore := (restoreValid_cc s).trans hcc
  obtain ⟨-, -, h⟩ | ⟨-, -, h⟩ | ⟨-, -, h⟩ | ⟨-, -, h⟩ := reconcile_cases s hx <;> rw [h]
  · exact ⟨hcc, hflags, hdrf, rfl, rfl, rfl⟩
  · exact ⟨hrestore, hflags.emptyFour, (nomatch ·), rfl, rfl, rfl⟩
  · exact ⟨hcc, hflags.emptyFront, (nomatch ·), rfl, rfl, rfl⟩
  · exact ⟨hrestore, hflags.emptyFour, (nomatch ·), rfl, rfl, rfl⟩

theorem State.CoreInv.unitInv (h : s.CoreInv) : s.beginCycle.UnitInv :=
  ⟨h.memoryCanonical, h.memoryInRange, h.ccIsBit, h.ccValid,
    fun u => ⟨h.neverBusy u, h.notStalledBelowDrf u⟩, h.outcomeIffStopped⟩

/-- The structural invariant of what has the part that units keep, with what it says of DRF, the signals and the clock. -/
theorem coreInv_of_unitInv (h : s.UnitInv) (hdrf : s.L.drf.stalled = true → s.L.drf.fresh .drf = true)
    (hsig : s.runState = .running → s.flushPending = false ∧ s.flushTarget = 0 ∧ s.haltSev = .none)
    (hclock : s.clock ≤ s.launch.maxCycles) : s.CoreInv :=
  ⟨h.memoryCanonical, h.memoryInRange, h.ccIsBit, h.ccValid, fun u => (h.flags u).1, fun u => (h.flags u).2, hdrf,
    h.outcome, hsig, hclock⟩

/-- The end of the cycle brings back the structural invariant. -/
theorem finishCycle_coreInv (hm : runUnits unitOrder s.beginCycle = .next m) (h : m.UnitInv)
    (hdrf : m.L.drf.stalled = true → m.L.drf.fresh .drf = true) (hclock : m.clock < m.launch.maxCycles) :
    m.finishCycle.CoreInv := by
  obtain hr | hr := stopped_or_running m
  · rw [finishCycle_stopped hr]
    exact coreInv_of_unitInv h hdrf (fun hrun => absurd (hrun.symm.trans hr) (by decide)) hclock.le
  have hfin : m.finishCycle = m.reconcile.endCycle := finishCycle_running hr
  have hframe := finishCycle_frame hm
  obtain ⟨hvalid, hflags, hdrf, hsig⟩ := reconcile_inv (flush_excludes_halt hm) h.ccValid h.flags hdrf
  obtain ⟨hrun, hout, hclk, -⟩ := reconcile_keeps hm
  have hbit : m.finishCycle.readX ccSlot = m.readX ccSlot := by rw [State.readX, State.readX, hframe.x]
  have hrange : m.finishCycle.CellsInRange := by
    rw [State.CellsInRange, hframe.dmem, hframe.launch]
    exact h.memoryInRange
  have hinv (hv : m.finishCycle.readV ccSlot = true) (hL : m.finishCycle.L.FlagsOk)
      (ho : m.finishCycle.runState = .running ↔ m.finishCycle.outcome = .none) : m.finishCycle.UnitInv :=
    ⟨hframe.dmem ▸ h.memoryCanonical, hrange, hbit ▸ h.ccIsBit, hv, hL, ho⟩
  have hbound : m.reconcile.clock < m.finishCycle.launch.maxCycles := by rwa [hclk, hframe.launch]
  obtain ⟨-, hend⟩ | ⟨-, hend⟩ | ⟨-, hend⟩ := endCycle_cases m.reconcile <;> rw [hend] at hfin <;>
    rw [hfin] at hinv hbound ⊢
  · exact coreInv_of_unitInv (hinv hvalid hflags (by simp)) hdrf (nomatch ·) hbound.le
  · exact coreInv_of_unitInv (hinv hvalid hflags (by simp)) hdrf (nomatch ·) hbound.le
  · have ho : m.reconcile.runState = .running ↔ m.reconcile.outcome = .none := by
      rw [hrun, hout]
      exact h.outcome
    exact coreInv_of_unitInv (hinv hvalid hflags ho) hdrf (fun _ => hsig) hbound

/-- Settles O42: every unit keeps `UnitInv`, and the end of the cycle brings back the rest. -/
theorem stepKeepsTheCoreInvariant : Obligations.StepKeepsTheCoreInvariant := by
  unfold Obligations.StepKeepsTheCoreInvariant
  intro s t hs h
  obtain ⟨-, rfl⟩ | rfl | ⟨hc, m, hm, rfl⟩ := step_inv h
  · exact hs
  · exact coreInv_of_unitInv ⟨hs.memoryCanonical, hs.memoryInRange, hs.ccIsBit, hs.ccValid,
      fun u => ⟨hs.neverBusy u, hs.notStalledBelowDrf u⟩, by simp⟩ hs.stalledDrfFresh (nomatch ·) hs.clockBounded
  · have hframe := runUnits_unitsFrame hm
    have hclock : m.clock < m.launch.maxCycles := by
      rw [hframe.clock, hframe.launch]
      exact hc.2.2
    exact finishCycle_coreInv hm (runUnits_unitInv hm hs.unitInv) (stalledDrf_in_cycle hs.stalledDrfFresh hm) hclock

end Sys2Proof.Machine

/-!
# Writers in flight (spec 10_state.md section 1; 40_pipeline.md section 9)

In a cycle without a raise every writer in flight moves one stage down, the one in WB releases its register, and the one
that EX1 claims for stands in EX2. A raise leaves the writers above it where they were. What reconciliation discards in EX2
is what EX1 recorded in `e1_done`, so the restore re-validates its register.
-/

namespace Sys2Proof.Machine

open Sys2Proof.Claims

variable {s t a b m k : State} {u d : Stage} {i : Slot}

/-! ### Moving a writer -/

/-- A content is told by its pc and its fields (R74). -/
theorem content_of_fields (s : State) {l l' : Latch} (hpc : l.pc = l'.pc) (hfields : l.fields = l'.fields) :
    s.content l = s.content l' := by
  rw [State.content, State.content, hpc, hfields]

/-- A writer whose content stands, fresh, in a stage from EX2 down is in flight there. -/
theorem State.WriterAt.move (h : s.WriterAt i u) (hl : t.launch = s.launch) (hi : t.imem = s.imem)
    (hd : d = .ex2 ∨ d = .mem1 ∨ d = .mem2 ∨ d = .wb) (hfresh : (t.latch d).fresh d = true)
    (hpc : (t.latch d).pc = (s.latch u).pc) (hfields : (t.latch d).fields = (s.latch u).fields) : t.WriterAt i d := by
  obtain ⟨-, -, hwrites, hslot⟩ := h
  refine ⟨hd, hfresh, ?_, by rwa [hfields]⟩
  have hcls : t.cls (t.latch d) = s.cls (s.latch u) := by
    rw [cls_congr hl hi, State.cls, State.cls, content_of_fields s hpc hfields]
  rwa [hcls]

/-- A writer stays in flight where its latch keeps its content and its freshness. -/
theorem State.WriterAt.stay (h : s.WriterAt i u) (hl : t.launch = s.launch) (hi : t.imem = s.imem)
    (hlatch : ∃ e, t.latch u = { s.latch u with isEmpty := e }) : t.WriterAt i u := by
  obtain ⟨e, he⟩ := hlatch
  exact h.move hl hi h.1 (by rw [he]; exact h.2.1) (by rw [he]) (by rw [he])

/-- A fresh content that is an instruction with the destination `rd`, in a stage from EX2 down, is a writer in flight. -/
theorem writerAt_of_dest {rd : Reg} (hu : u = .ex2 ∨ u = .mem1 ∨ u = .mem2 ∨ u = .wb) (hf : (s.latch u).fresh u = true)
    (hd : (s.content (s.latch u)).dest = some rd) : s.WriterAt (regSlot rd) u := by
  cases hc : s.content (s.latch u) with
  | instr j =>
    rw [hc] at hd
    refine ⟨hu, hf, ?_, by rw [rd_eq_dest (decode_of_content hc) hd]⟩
    rw [State.cls, hc]
    exact (writesRd_iff_dest j).mpr ⟨rd, hd⟩
  | illegal | endOfCode =>
    rw [hc] at hd
    cases hd

/-- The instruction of a writer in flight, and its destination. -/
theorem State.WriterAt.dest (h : s.WriterAt i u) :
    ∃ j rd, s.content (s.latch u) = .instr j ∧ j.dest = some rd ∧ regSlot rd = i := by
  obtain ⟨-, -, hwrites, hslot⟩ := h
  cases hc : s.content (s.latch u) with
  | instr j =>
    rw [State.cls, hc] at hwrites
    obtain ⟨rd, hrd⟩ := (writesRd_iff_dest j).mp hwrites
    exact ⟨j, rd, rfl, hrd, by rw [← hslot, rd_eq_dest (decode_of_content hc) hrd]⟩
  | illegal | endOfCode =>
    rw [State.cls, hc] at hwrites
    cases hwrites

/-! ### The units -/

/-- After WB an INVALID register was INVALID before, and its writer is not the occupant of WB (R105). -/
theorem invalid_after_wb (hr : s.runState = .running) (h : runUnit .wb s.beginCycle = .next a) (hv : a.readV i = false) :
    s.readV i = false ∧ (a.runState = .running → ¬ s.WriterAt i .wb) := by
  obtain ⟨hf, rfl⟩ | ⟨j, ⟨hf, hc⟩, rfl⟩ | ⟨-, rfl⟩ | ⟨⟨hf, hc⟩, rfl⟩ := wb_in_cycle hr h
  · exact ⟨hv, fun _ hw => absurd (hf.symm.trans hw.2.1) (by decide)⟩
  · have hfile := (wbFile_readV (s.beginCycle.setIsEmpty .wb false) j i).symm.trans hv
    by_cases hd : ∃ rd, j.dest = some rd ∧ regSlot rd = i
    · rw [if_pos hd] at hfile
      cases hfile
    · rw [if_neg hd] at hfile
      refine ⟨hfile, fun _ hw => ?_⟩
      obtain ⟨l, rd, hl, hrd⟩ := hw.dest
      obtain rfl := Content.instr.inj (hc.symm.trans hl)
      exact hd ⟨rd, hrd⟩
  · exact ⟨hv, (nomatch ·)⟩
  · refine ⟨hv, fun _ hw => ?_⟩
    obtain ⟨l, rd, hl, -⟩ := hw.dest
    cases hc.symm.trans hl

/-- After the units before Fetch, without a raise, an INVALID register is one that EX1 has claimed, or one that was INVALID
after WB (R105, R113). -/
theorem invalid_before_fetch (h : runUnits [.wb, .mem2, .mem1, .ex2, .ex1, .drf] s.beginCycle = .next k)
    (hk : k.runState = .running) (hv : k.readV i = false) :
    (∃ rd, ((s.latch .ex1).fresh .ex1 = true ∧ (s.content (s.latch .ex1)).dest = some rd) ∧ regSlot rd = i) ∨
      ∃ a, runUnit .wb s.beginCycle = .next a ∧ a.runState = .running ∧ a.readV i = false := by
  obtain ⟨a, b, hu⟩ := unit_in_cycle (u := .ex1) [.wb, .mem2, .mem1, .ex2] [.drf] h rfl (by decide)
  obtain ⟨n, hwb, hrest⟩ := andThen_eq_next hu.before
  obtain ⟨ha, -⟩ := hu.running hk
  have hv : b.readV i = false := by rwa [State.readV, (runUnits_unitsFrame hu.after).valid (by decide) (by decide)] at hv
  have hafter (hva : a.readV i = false) :
      ∃ a, runUnit .wb s.beginCycle = .next a ∧ a.runState = .running ∧ a.readV i = false := by
    rw [State.readV, (runUnits_unitsFrame hrest).valid (by decide) (by decide)] at hva
    exact ⟨n, hwb, running_of_runUnits hrest ha, hva⟩
  cases hf : (s.latch .ex1).fresh .ex1 with
  | false =>
    obtain rfl := hu.idle (by decide) ha hf
    exact .inr (hafter hv)
  | true =>
    obtain ⟨x, y, hshape⟩ := performContent_ex1_shape (s.content (s.latch .ex1)) (a.setIsEmpty .ex1 false)
    obtain rfl := next_unique (hu.performs (by decide) ha hf) hshape
    have hclaim := (claim_readV (a.setIsEmpty .ex1 false) (s.content (s.latch .ex1)).dest i).symm.trans hv
    by_cases hd : ∃ rd, (s.content (s.latch .ex1)).dest = some rd ∧ regSlot rd = i
    · obtain ⟨rd, hrd, hslot⟩ := hd
      exact .inl ⟨rd, ⟨rfl, hrd⟩, hslot⟩
    · rw [if_neg hd] at hclaim
      exact .inr (hafter hclaim)

/-- After the units before Fetch, without a raise, every INVALID register has a writer in flight. -/
theorem writers_before_fetch (hs : s.InvalidHasWriter) (hr : s.runState = .running)
    (h : runUnits [.wb, .mem2, .mem1, .ex2, .ex1, .drf] s.beginCycle = .next k) (hk : k.runState = .running) :
    k.InvalidHasWriter := by
  have hframe := runUnits_unitsFrame h
  intro i hv
  obtain ⟨rd, ⟨hf, hrd⟩, rfl⟩ | ⟨a, hwb, ha, hv⟩ := invalid_before_fetch h hk hv
  · obtain ⟨hfresh, hpc, hfields⟩ := moves_down h hk (.inl ⟨rfl, rfl⟩) hf
    refine ⟨.ex2, writerAt_of_dest (.inl rfl) hfresh ?_⟩
    rw [content_congr (s := s) hframe.launch hframe.imem, content_of_fields s hpc hfields]
    exact hrd
  · obtain ⟨hv, hnot⟩ := invalid_after_wb hr hwb hv
    obtain ⟨u, hw⟩ := hs i hv
    have hmove {d : Stage} (hd : d = .ex2 ∨ d = .mem1 ∨ d = .mem2 ∨ d = .wb)
        (hud : (u = .ex1 ∧ d = .ex2) ∨ (u = .ex2 ∧ d = .mem1) ∨ (u = .mem1 ∧ d = .mem2) ∨ (u = .mem2 ∧ d = .wb)) :
        ∃ v, k.WriterAt i v := by
      obtain ⟨hfresh, hpc, hfields⟩ := moves_down h hk hud hw.2.1
      exact ⟨d, hw.move hframe.launch hframe.imem hd hfresh hpc hfields⟩
    obtain rfl | rfl | rfl | rfl := hw.1
    · exact hmove (d := .mem1) (by decide) (by decide)
    · exact hmove (d := .mem2) (by decide) (by decide)
    · exact hmove (d := .wb) (by decide) (by decide)
    · exact absurd hw (hnot ha)

/-- A raise of a unit before Fetch leaves the validity bits and the contents of all latches (R204). -/
theorem raise_keeps (hu : u ≠ .f) (hs : s.runState = .running) (h : runUnit u s = .next t) (ht : t.runState = .stopped) :
    t.valid = s.valid ∧ ∀ v, ∃ e, t.latch v = { s.latch v with isEmpty := e } := by
  obtain rfl | rfl | ⟨-, hp⟩ := runUnit_latch_inv hu h
  · exact absurd (hs.symm.trans ht) (by decide)
  · exact absurd (hs.symm.trans ht) (by decide)
  have hraise {r : Fault} (h : t = afterRaise (s.setIsEmpty u false) u r) :
      t.valid = s.valid ∧ ∀ v, ∃ e, t.latch v = { s.latch v with isEmpty := e } := by
    subst h
    refine ⟨rfl, fun v => ?_⟩
    have hset := latch_setIsEmpty s u v false
    split at hset
    · next huv => exact ⟨false, huv ▸ hset⟩
    · exact ⟨(s.latch v).isEmpty, hset⟩
  obtain ⟨hr, -⟩ | ⟨-, ⟨⟨rfl, hc⟩, -⟩ | ⟨⟨rfl, hacc⟩, -⟩ | ⟨⟨hf, -⟩, -⟩⟩ :=
    performContent_run (s := s.setIsEmpty u false) _ hp
  · exact absurd (hs.symm.trans (hr.symm.trans ht)) (by decide)
  · rw [hc] at hp
    exact hraise (next_unique hp (performContent_wb_illegal _))
  · obtain ⟨b, hm⟩ | ⟨i, -, -, -, hm⟩ | ⟨i, -, -, -, hm⟩ :=
      performContent_mem2_shape (s.content (s.latch .mem2)) (s.setIsEmpty .mem2 false)
    · exact absurd (hs.symm.trans ((congrArg State.runState (next_unique hm hp)).trans ht)) (by decide)
    · exact absurd (hs.symm.trans ((congrArg State.runState (next_unique hm hp)).trans ht)) (by decide)
    · exact hraise (next_unique hp hm)
  · exact absurd hf hu

/-- A raise of WB or of MEM2 leaves every writer where it was, but for the one that WB has released (R204). -/
theorem writers_after_raise (hs : s.InvalidHasWriter) (hr : s.runState = .running)
    (h : runUnits [.wb, .mem2, .mem1, .ex2, .ex1, .drf] s.beginCycle = .next k) (hk : k.runState = .stopped) :
    k.InvalidHasWriter := by
  obtain ⟨a, b, hu⟩ := unit_in_cycle (u := .mem2) [.wb] [.mem1, .ex2, .ex1, .drf] h rfl (by decide)
  have hframe := runUnits_unitsFrame h
  obtain ⟨a', hwb, hnil⟩ := andThen_eq_next hu.before
  obtain rfl := Host.Outcome.next.inj hnil
  intro i hv
  obtain ha | ha := stopped_or_running a'
  · obtain rfl := next_unique hu.unit (runUnit_stopped .mem2 a' ha)
    obtain rfl := next_unique hu.after (runUnits_stopped _ ha)
    obtain ⟨-, hlatch⟩ := raise_keeps (s := s.beginCycle) (by decide) hr hwb ha
    obtain ⟨u, hw⟩ := hs i (invalid_after_wb hr hwb hv).1
    exact ⟨u, hw.stay hframe.launch hframe.imem (hlatch u)⟩
  · have hb : b.runState = .stopped :=
      ((runUnits_unitsFrame hu.after).runState (by decide) (by decide) (by decide)).symm.trans hk
    obtain rfl := next_unique hu.after (runUnits_stopped _ hb)
    obtain ⟨hvalid, hlatch⟩ := raise_keeps (by decide) ha hu.unit hb
    rw [State.readV, hvalid] at hv
    obtain ⟨hv, hnot⟩ := invalid_after_wb hr hwb hv
    obtain ⟨u, hw⟩ := hs i hv
    have hstay (hu' : Stage.wb.touches u = false) : ∃ v, State.WriterAt k i v := by
      have hkeep : a'.latch u = s.latch u := (runUnit_unitsFrame hwb).latch u (by simpa using hu')
      exact ⟨u, hw.stay hframe.launch hframe.imem (hkeep ▸ hlatch u)⟩
    obtain rfl | rfl | rfl | rfl := hw.1
    · exact hstay rfl
    · exact hstay rfl
    · exact hstay rfl
    · exact absurd hw (hnot ha)

/-- At the end of the units every INVALID register has a writer in flight: Fetch changes no validity bit and no latch from EX1
down. -/
theorem writers_in_cycle (hs : s.InvalidHasWriter) (hr : s.runState = .running)
    (h : runUnits unitOrder s.beginCycle = .next m) : m.InvalidHasWriter := by
  obtain ⟨k, hk, hfetch⟩ := runUnits_append_eq_next (us := [.wb, .mem2, .mem1, .ex2, .ex1, .drf]) h
  have hframe := runUnits_unitsFrame hfetch
  have hwriters : k.InvalidHasWriter := by
    obtain hstop | hrun := stopped_or_running k
    · exact writers_after_raise hs hr hk hstop
    · exact writers_before_fetch hs hr hk hrun
  intro i hv
  rw [State.readV, hframe.valid (by decide) (by decide)] at hv
  obtain ⟨u, hw⟩ := hwriters i hv
  have hkeep : m.latch u = k.latch u := hframe.latch u (by obtain rfl | rfl | rfl | rfl := hw.1 <;> decide)
  exact ⟨u, hw.stay hframe.launch hframe.imem ⟨_, hkeep⟩⟩

/-! ### The end of the cycle -/

/-- A fresh content of EX2 at the end of the units is the one that `e1_done` holds (R32, R114). -/
theorem e1Done_of_fresh (h : runUnits unitOrder s.beginCycle = .next m) (hm : m.runState = .running)
    (hf : m.L.ex2.fresh .ex2 = true) :
    ∃ l, m.e1Done = some l ∧ l.pc = m.L.ex2.pc ∧ l.fields = m.L.ex2.fields := by
  obtain ⟨a, b, hu⟩ := unit_in_cycle (u := .ex1) [.wb, .mem2, .mem1, .ex2] [.drf, .f] h rfl (by decide)
  have hframe := runUnits_unitsFrame hu.after
  have hkeep : m.L.ex2 = b.L.ex2 := hframe.latch .ex2 (by decide)
  obtain ⟨ha, -⟩ := hu.running hm
  rw [hframe.e1Done (by decide), hkeep]
  cases hex1 : (s.latch .ex1).fresh .ex1 with
  | false =>
    obtain rfl := hu.idle (by decide) ha hex1
    obtain ⟨n, a', hex2⟩ := unit_in_cycle (u := .ex2) [.wb, .mem2, .mem1] [] hu.before rfl (by decide)
    obtain rfl := Host.Outcome.next.inj hex2.after
    have hnot : a'.L.ex2.fresh .ex2 = false := hex2.not_fresh nofun ha nofun
    rw [hkeep] at hf
    exact absurd (hnot.symm.trans hf) (by decide)
  | true =>
    obtain ⟨x, y, hshape⟩ := performContent_ex1_shape (s.content (s.latch .ex1)) (a.setIsEmpty .ex1 false)
    obtain rfl := next_unique (hu.performs (by decide) ha hex1) hshape
    exact ⟨_, rfl, rfl, rfl⟩

/-- The restore re-validates the register of the writer that is discarded in EX2, and makes none INVALID (R127). -/
theorem invalid_after_restore (hflag : m.launch.flushRestoresValid = true)
    (he : m.L.ex2.fresh .ex2 = true → ∃ l, m.e1Done = some l ∧ l.pc = m.L.ex2.pc ∧ l.fields = m.L.ex2.fields)
    (hv : m.restoreValid.readV i = false) : m.readV i = false ∧ ¬ m.WriterAt i .ex2 := by
  have hkept : m.readV i = false := by
    obtain h | ⟨l, -, -, -, h⟩ := restoreValid_cases m <;> rw [h] at hv
    · exact hv
    · rw [readV_writeV] at hv
      split at hv
      · cases hv
      · exact hv
  refine ⟨hkept, fun hw => ?_⟩
  obtain ⟨l, hl, hpc, hfields⟩ := he hw.2.1
  obtain ⟨j, rd, hc, hrd, rfl⟩ := hw.dest
  have hcontent : m.content l = .instr j := (content_of_fields m hpc hfields).trans hc
  exact absurd ((restoreValid_readV hl hcontent hrd hkept).symm.trans hv) (by simp [hflag])

/-- The end of the cycle keeps every writer in flight, but for the one discarded in EX2, whose register it re-validates. -/
theorem writers_at_end (hr : s.runState = .running) (h : runUnits unitOrder s.beginCycle = .next m)
    (hflag : s.launch.flushRestoresValid = true) (hm : m.InvalidHasWriter) : m.finishCycle.InvalidHasWriter := by
  obtain hstop | hrun := stopped_or_running m
  · rw [finishCycle_stopped hstop]
    exact hm
  have hfin : m.finishCycle = m.reconcile.endCycle := finishCycle_running hrun
  have hframe := finishCycle_frame h
  rw [hfin] at hframe ⊢
  have hflag : m.launch.flushRestoresValid = true :=
    (congrArg Launch.flushRestoresValid (runUnits_unitsFrame h).launch).trans hflag
  have hother {i : Slot} {u : Stage} (hw : m.WriterAt i u) (hu : u ≠ .ex2) : m.reconcile.endCycle.WriterAt i u := by
    refine hw.stay hframe.launch hframe.imem ⟨(m.latch u).isEmpty, ?_⟩
    obtain rfl | rfl | rfl | rfl := hw.1
    · exact absurd rfl hu
    · exact hframe.mem1
    · exact hframe.mem2
    · exact hframe.wb
  have hkept (hv : m.reconcile.endCycle.valid = m.valid) (hL : m.reconcile.endCycle.L.ex2 = m.L.ex2) :
      m.reconcile.endCycle.InvalidHasWriter := by
    intro i hi
    rw [State.readV, hv] at hi
    obtain ⟨u, hw⟩ := hm i hi
    by_cases hu : u = .ex2
    · subst hu
      exact ⟨.ex2, hw.stay hframe.launch hframe.imem ⟨_, hL⟩⟩
    · exact ⟨u, hother hw hu⟩
  have hrestored (hv : m.reconcile.endCycle.valid = m.restoreValid.valid) : m.reconcile.endCycle.InvalidHasWriter := by
    intro i hi
    rw [State.readV, hv] at hi
    obtain ⟨hi, hnot⟩ := invalid_after_restore hflag (e1Done_of_fresh h hrun) hi
    obtain ⟨u, hw⟩ := hm i hi
    exact ⟨u, hother hw fun hu => hnot (hu ▸ hw)⟩
  obtain ⟨p, -, -, hend⟩ | ⟨-, ⟨-, hend⟩ | ⟨-, -, hend⟩ | ⟨-, hend⟩⟩ := end_of_cycle hr h hrun
  · exact hrestored hend.valid
  · exact hrestored hend.valid
  · exact hkept hend.valid (by rw [hend.L]; rfl)
  · exact hkept hend.valid (by rw [hend.L])

/-- Settles O44: the units move every writer down, and the end of the cycle restores what it discards. -/
theorem invalidRegistersHaveAWriterInFlight : Obligations.InvalidRegistersHaveAWriterInFlight := by
  unfold Obligations.InvalidRegistersHaveAWriterInFlight
  intro s t hflag hs h
  obtain ⟨-, rfl⟩ | rfl | ⟨hc, m, hm, rfl⟩ := step_inv h
  · exact hs
  · intro i hi
    obtain ⟨u, hw⟩ := hs i hi
    exact ⟨u, hw.stay rfl rfl ⟨_, rfl⟩⟩
  · exact writers_at_end hc.1 hm hflag (writers_in_cycle hs hc.1 hm)

end Sys2Proof.Machine

/-!
# The cycle of the spec's pseudocode (spec 40_pipeline.md section 13)

The listing computes the class of a latch from its opcode number and works on the fields; the class is that of the instruction
the latch decodes to, and the fields are its operands. So each unit does what the listing does, and the cycle follows.
-/

namespace Sys2Proof.Machine

open Sys2Proof.Claims

variable {s t m r : State} {u : Stage} {l : Latch} {i : Instr}

/-! ### Classes -/

theorem refClass_of_end (h : s.endAddr ≤ l.pc.toNat) : s.refClass l = .endOfCode := if_pos h

/-- The class by opcode number is that of the decoded instruction (R73, R74). -/
theorem refClass_of_ok (h : ¬ s.endAddr ≤ l.pc.toNat) (hd : decodeFields l.fields = .ok i) : s.refClass l = i.cls := by
  obtain ⟨hresv, hop, -⟩ := fields_of_decodeFields hd
  rw [State.refClass, if_neg h, if_neg (not_not.mpr hresv), hop]
  cases i <;> rfl

/-- What the decoder rejects is ILLEGAL by opcode number (R76, R77). -/
theorem refClass_of_error {e : DecodeError} (h : ¬ s.endAddr ≤ l.pc.toNat) (hd : decodeFields l.fields = .error e) :
    s.refClass l = .illegal := by
  have hno (hresv : l.fields.resv = 0) (hlow : 1 ≤ l.fields.op.toNat) : ¬ l.fields.op.toNat ≤ 15 := by
    intro hhigh
    obtain ⟨i, hi⟩ := exists_decodeFields hresv hlow hhigh
    cases hi.symm.trans hd
  rw [State.refClass, if_neg h]
  split
  · rfl
  · next hresv =>
    have hno := hno (not_not.mp hresv)
    split
    case h_16 => rfl
    all_goals omega

/-- The listing's class is the model's (R74). -/
theorem refClass_eq (s : State) (l : Latch) : s.refClass l = s.cls l := by
  by_cases h : s.endAddr ≤ l.pc.toNat
  · rw [refClass_of_end h, State.cls, content_of_end h]
    rfl
  · cases hd : decodeFields l.fields with
    | ok i =>
      rw [refClass_of_ok h hd, State.cls, content_of_ok (Nat.not_le.mp h) hd]
      rfl
    | error e =>
      rw [refClass_of_error h hd, State.cls, content_of_error (Nat.not_le.mp h) hd]
      rfl

theorem refBranchy_eq (s : State) (u : Stage) : s.refBranchy u = s.branchyAt u := by
  rw [Bool.eq_iff_iff, branchyAt_iff, State.refBranchy, Bool.and_eq_true, refClass_eq]

theorem refArith_eq (s : State) (u : Stage) : s.refArith u = s.arithAt u := by
  rw [Bool.eq_iff_iff, arithAt_iff, State.refArith, Bool.and_eq_true, decide_eq_true_iff, refClass_eq]

/-! ### The units -/

/-- The unit of the listing for each stage. -/
def State.refUnit (s : State) : Stage → State
  | .f => s.refFetch
  | .drf => s.refDrf
  | .ex1 => s.refEx1
  | .ex2 => s.refEx2
  | .mem1 => s.refMem1
  | .mem2 => s.refMem2
  | .wb => s.refWb

/-- A latch that is not fresh: the display flag, in the listing as in the model (R104, R133). -/
theorem refUnit_idle (hu : u ≠ .f) (hf : (s.S0.get u).fresh u = false) :
    ({ s with unit := u } : State).setIsEmpty u true = { s.refUnit u with unit := u } := by
  have hf := Bool.eq_false_iff.mp hf
  cases u with
  | f => exact absurd rfl hu
  | drf =>
    have h : s.refDrf = { s with L := { s.L with drf := { s.L.drf with isEmpty := true } } } := if_neg hf
    exact congrArg (fun t : State => { t with unit := .drf }) h.symm
  | ex1 =>
    have h : s.refEx1 = { s with L := { s.L with ex1 := { s.L.ex1 with isEmpty := true } } } := if_neg hf
    exact congrArg (fun t : State => { t with unit := .ex1 }) h.symm
  | ex2 =>
    have h : s.refEx2 = { s with L := { s.L with ex2 := { s.L.ex2 with isEmpty := true } } } := if_neg hf
    exact congrArg (fun t : State => { t with unit := .ex2 }) h.symm
  | mem1 =>
    have h : s.refMem1 = { s with L := { s.L with mem1 := { s.L.mem1 with isEmpty := true } } } := if_neg hf
    exact congrArg (fun t : State => { t with unit := .mem1 }) h.symm
  | mem2 =>
    have h : s.refMem2 = { s with L := { s.L with mem2 := { s.L.mem2 with isEmpty := true } } } := if_neg hf
    exact congrArg (fun t : State => { t with unit := .mem2 }) h.symm
  | wb =>
    have h : s.refWb = { s with L := { s.L with wb := { s.L.wb with isEmpty := true } } } := if_neg hf
    exact congrArg (fun t : State => { t with unit := .wb }) h.symm

/-- The listing's class of the latch that a unit performs, its display flag cleared (R74, R133). -/
theorem refClass_of_content (u : Stage) {c : Content} (hc : s.content (s.latch u) = c) :
    s.refClass { s.latch u with isEmpty := false } = c.cls := by
  rw [refClass_eq, ← hc]
  rfl

theorem refMem1_performs (hf : s.S0.mem1.fresh .mem1 = true) :
    performContent (s.content (s.latch .mem1)) { s.setIsEmpty .mem1 false with unit := .mem1 } =
      .next { s.refMem1 with unit := .mem1 } := by
  have h : s.refMem1 = _ := if_pos hf
  rw [performContent_mem1, h]
  rfl

theorem refWb_performs (hf : s.S0.wb.fresh .wb = true) :
    performContent (s.content (s.latch .wb)) { s.setIsEmpty .wb false with unit := .wb } =
      .next { s.refWb with unit := .wb } := by
  have h : s.refWb = _ := if_pos hf
  rw [h]
  cases hc : s.content (s.latch .wb) with
  | illegal | endOfCode =>
    have hclass : s.refClass { s.L.wb with isEmpty := false } = _ := refClass_of_content .wb hc
    simp only [hclass, Content.cls, reduceCtorEq, if_false, if_true, InsnClass.writesRd, Bool.false_eq_true]
    rfl
  | instr i =>
    have hclass : s.refClass { s.L.wb with isEmpty := false } = i.cls := refClass_of_content .wb hc
    have hrd {rd : Reg} (hd : i.dest = some rd) : s.L.wb.fields.rd = rd := rd_eq_dest (decode_of_content hc) hd
    cases i with
    | store | str | bz | bnz | jump | halt =>
      simp only [hclass, Instr.cls, reduceCtorEq, if_false, if_true, InsnClass.writesRd, Bool.false_eq_true]
      rfl
    | _ =>
      simp only [hclass, Instr.cls, reduceCtorEq, if_false, if_true, InsnClass.writesRd, hrd rfl]
      rfl

/-- MEM2 of a content that accesses no memory passes it on, in the listing as in the model (R109). -/
theorem refMem2_passes {c : Content} (hf : s.S0.mem2.fresh .mem2 = true) (hc : s.content (s.latch .mem2) = c)
    (hl : c.cls ≠ .load) (hr : c.cls ≠ .ldr) (hs : c.cls ≠ .store) (ht : c.cls ≠ .str) :
    performContent c { s.setIsEmpty .mem2 false with unit := .mem2 } = .next { s.refMem2 with unit := .mem2 } := by
  have h : s.refMem2 = _ := if_pos hf
  have hclass : s.refClass { s.L.mem2 with isEmpty := false } = _ := refClass_of_content .mem2 hc
  rw [h, performContent_mem2_pass hl hr hs ht]
  simp only [hclass, hl, hr, hs, ht, decide_false, Bool.or_false, Bool.false_and, Bool.false_eq_true, if_false]
  rfl

theorem refMem2_performs (hf : s.S0.mem2.fresh .mem2 = true) :
    performContent (s.content (s.latch .mem2)) { s.setIsEmpty .mem2 false with unit := .mem2 } =
      .next { s.refMem2 with unit := .mem2 } := by
  have hpass := refMem2_passes hf rfl
  cases hc : s.content (s.latch .mem2) with
  | illegal | endOfCode =>
    rw [hc] at hpass
    exact hpass nofun nofun nofun nofun
  | instr i =>
    rw [hc] at hpass
    have hclass : s.refClass { s.L.mem2 with isEmpty := false } = i.cls := refClass_of_content .mem2 hc
    have h : s.refMem2 = _ := if_pos hf
    cases i with
    | load | ldr =>
      rw [h]
      simp only [hclass, Instr.cls, reduceCtorEq, decide_false, decide_true, Bool.or_false, Bool.or_true, Bool.true_and,
        decide_eq_true_eq, Bool.false_eq_true, if_false, if_true]
      split
      · next ha => exact congrArg _ (mem2Load_out_of_range (s := s.setIsEmpty .mem2 false) ha)
      · next ha => exact congrArg _ (mem2Load_in_range (s := s.setIsEmpty .mem2 false) (Nat.not_le.mp ha))
    | store | str =>
      rw [h]
      simp only [hclass, Instr.cls, reduceCtorEq, decide_false, decide_true, Bool.or_false, Bool.or_true, Bool.true_and,
        decide_eq_true_eq, Bool.false_eq_true, if_false, if_true]
      split
      · next ha => exact congrArg _ (mem2Store_out_of_range (s := s.setIsEmpty .mem2 false) ha)
      · next ha => exact congrArg _ (mem2Store_in_range (s := s.setIsEmpty .mem2 false) (Nat.not_le.mp ha))
    | _ => exact hpass nofun nofun nofun nofun

theorem refEx2_performs (hf : s.S0.ex2.fresh .ex2 = true) :
    performContent (s.content (s.latch .ex2)) { s.setIsEmpty .ex2 false with unit := .ex2 } =
      .next { s.refEx2 with unit := .ex2 } := by
  have h : s.refEx2 = _ := if_pos hf
  rw [h]
  cases hc : s.content (s.latch .ex2) with
  | illegal | endOfCode =>
    have hclass : s.refClass { s.L.ex2 with isEmpty := false } = _ := refClass_of_content .ex2 hc
    simp only [hclass, Content.cls, reduceCtorEq, if_false]
    rfl
  | instr i =>
    have hclass : s.refClass { s.L.ex2 with isEmpty := false } = i.cls := refClass_of_content .ex2 hc
    obtain ⟨-, hop, hused⟩ := fields_of_decodeFields (decode_of_content hc)
    have hop : s.L.ex2.fields.op = opcodeOf i := hop
    cases i with
    | bz imm =>
      have himm : s.L.ex2.fields.imm = imm := hused
      have hbz : (opcodeOf (.bz imm) = 12 ∧ s.readX ccSlot = 1) ∨ (opcodeOf (.bz imm) = 13 ∧ s.readX ccSlot = 0) ↔
          s.readX ccSlot = 1 := by simp [opcodeOf]
      have hmodel := ex2Branch_in_ex2 (s.setIsEmpty .ex2 false) bzExpects imm
      simp only [hclass, hop, himm, hbz, Instr.cls, if_true]
      split
      · next hcc => exact congrArg _ (hmodel.trans (if_pos hcc))
      · next hcc => exact congrArg _ (hmodel.trans (if_neg hcc))
    | bnz imm =>
      have himm : s.L.ex2.fields.imm = imm := hused
      have hbnz : (opcodeOf (.bnz imm) = 12 ∧ s.readX ccSlot = 1) ∨ (opcodeOf (.bnz imm) = 13 ∧ s.readX ccSlot = 0) ↔
          s.readX ccSlot = 0 := by simp [opcodeOf]
      have hmodel := ex2Branch_in_ex2 (s.setIsEmpty .ex2 false) bnzExpects imm
      simp only [hclass, hop, himm, hbnz, Instr.cls, if_true]
      split
      · next hcc => exact congrArg _ (hmodel.trans (if_pos hcc))
      · next hcc => exact congrArg _ (hmodel.trans (if_neg hcc))
    | halt =>
      have hmodel := ex2Halt_in_ex2 (s.setIsEmpty .ex2 false)
      simp only [hclass, Instr.cls, reduceCtorEq, if_false, if_true, refBranchy_eq]
      split
      · next hb => exact congrArg _ (hmodel.trans (if_pos hb))
      · next hb => exact congrArg _ (hmodel.trans (if_neg hb))
    | _ =>
      simp only [hclass, Instr.cls, reduceCtorEq, if_false, if_true]
      rfl

theorem refEx1_performs (hf : s.S0.ex1.fresh .ex1 = true) :
    performContent (s.content (s.latch .ex1)) { s.setIsEmpty .ex1 false with unit := .ex1 } =
      .next { s.refEx1 with unit := .ex1 } := by
  have h : s.refEx1 = _ := if_pos hf
  rw [h]
  cases hc : s.content (s.latch .ex1) with
  | illegal | endOfCode =>
    have hclass : s.refClass { s.L.ex1 with isEmpty := false } = _ := refClass_of_content .ex1 hc
    simp only [hclass, Content.cls, InsnClass.writesRd, Bool.false_eq_true, if_false]
    rfl
  | instr i =>
    have hclass : s.refClass { s.L.ex1 with isEmpty := false } = i.cls := refClass_of_content .ex1 hc
    obtain ⟨-, hop, hused⟩ := fields_of_decodeFields (decode_of_content hc)
    have hop : s.L.ex1.fields.op = opcodeOf i := hop
    have hused : UsedFieldsHold s.L.ex1.fields i := hused
    cases i with
    | movc =>
      obtain ⟨hrd, himm⟩ := hused
      simp only [hclass, hrd, himm, Instr.cls, InsnClass.writesRd, if_true]
      rfl
    | load =>
      obtain ⟨hrd, -, himm⟩ := hused
      simp only [hclass, hrd, himm, Instr.cls, InsnClass.writesRd, if_true]
      rfl
    | store | jump =>
      obtain himm := hused.2
      simp only [hclass, himm, Instr.cls, InsnClass.writesRd, Bool.false_eq_true, if_false]
      rfl
    | str | bz | bnz | halt =>
      simp only [hclass, Instr.cls, InsnClass.writesRd, Bool.false_eq_true, if_false]
      rfl
    | _ =>
      simp only [hclass, hused.1, hop, Instr.cls, InsnClass.writesRd, if_true]
      rfl

/-- DRF of a content that is held back by source registers: which ones, and what it reads of them, by class and fields
(R116, R120). -/
theorem refSources {c : Content} (hc : s.content l = c) (hb : c.cls ≠ .branch) (hh : c.cls ≠ .halt) :
    ∃ n : Sources,
      (∀ t : State, performContent c { t with unit := .drf } = .next (({ t with unit := .drf } : State).drfOnSources n)) ∧
        s.refReady l c.cls = s.sourcesReady n ∧ s.refRead l c.cls = s.readSources n l := by
  have hone (r : Reg) : s.sourcesReady (Sources.one r) = s.readV (regSlot r) := by
    simp [State.sourcesReady, State.sourceReady, Sources.one]
  have htwo (r q : Reg) : s.sourcesReady (Sources.two r q) = (s.readV (regSlot r) && s.readV (regSlot q)) := by
    simp [State.sourcesReady, State.sourceReady, Sources.two]
  cases c with
  | illegal | endOfCode => exact ⟨Sources.none, fun _ => rfl, rfl, rfl⟩
  | instr i =>
    obtain ⟨-, -, hused⟩ := fields_of_decodeFields (decode_of_content hc)
    cases i with
    | movc => exact ⟨Sources.none, fun _ => rfl, rfl, rfl⟩
    | load =>
      obtain ⟨-, rfl, -⟩ := hused
      exact ⟨Sources.one _, fun _ => rfl, (hone _).symm, rfl⟩
    | jump =>
      obtain ⟨rfl, -⟩ := hused
      exact ⟨Sources.one _, fun _ => rfl, (hone _).symm, rfl⟩
    | store =>
      obtain ⟨rfl, rfl, -⟩ := hused
      exact ⟨Sources.two _ _, fun _ => rfl, (htwo _ _).symm, rfl⟩
    | str =>
      obtain ⟨rfl, rfl, rfl⟩ := hused
      exact ⟨Sources.three _ _ _, fun _ => rfl, rfl, rfl⟩
    | bz | bnz => exact absurd rfl hb
    | halt => exact absurd rfl hh
    | _ =>
      obtain ⟨-, rfl, rfl⟩ := hused
      exact ⟨Sources.two _ _, fun _ => rfl, (htwo _ _).symm, rfl⟩

theorem refDrf_on_sources {c : Content} (hf : s.S0.drf.fresh .drf = true) (hc : s.content (s.latch .drf) = c)
    (hb : c.cls ≠ .branch) (hh : c.cls ≠ .halt) :
    performContent c { s.setIsEmpty .drf false with unit := .drf } = .next { s.refDrf with unit := .drf } := by
  have h : s.refDrf = _ := if_pos hf
  have hclass : s.refClass { s.L.drf with isEmpty := false } = c.cls := refClass_of_content .drf hc
  have hcontent : s.content { s.L.drf with isEmpty := false } = c := hc
  obtain ⟨n, hmodel, hready, hread⟩ := refSources hcontent hb hh
  rw [h, hmodel, drfOnSources_in_drf]
  simp only [hclass, hb, hh, hready, hread, if_false]
  cases hr : s.sourcesReady n
  · simp only [Bool.not_false, if_true]
    exact congrArg _ ((if_neg (Bool.eq_false_iff.mp hr)).trans rfl)
  · simp only [Bool.not_true, Bool.false_eq_true, if_false]
    exact congrArg _ (if_pos hr)

theorem refDrf_on_cc {imm : Word} (hf : s.S0.drf.fresh .drf = true)
    (hc : s.content (s.latch .drf) = .instr (.bz imm) ∨ s.content (s.latch .drf) = .instr (.bnz imm)) :
    .next ({ s.setIsEmpty .drf false with unit := .drf } : State).drfOnCc =
      (.next { s.refDrf with unit := .drf } : Host.Outcome State Fault Refusal) := by
  have h : s.refDrf = _ := if_pos hf
  have hclass : s.refClass { s.L.drf with isEmpty := false } = .branch := by
    obtain hc | hc := hc <;> exact refClass_of_content .drf hc
  have hmodel := drfOnCc_in_drf (s.setIsEmpty .drf false)
  rw [h]
  simp only [hclass, reduceCtorEq, if_true, if_false, refArith_eq]
  split
  · next hz => exact congrArg _ (hmodel.trans (if_pos hz))
  · next hz => exact congrArg _ (hmodel.trans (if_neg hz))

theorem refDrf_on_halt (hf : s.S0.drf.fresh .drf = true) (hc : s.content (s.latch .drf) = .instr .halt) :
    .next ({ s.setIsEmpty .drf false with unit := .drf } : State).drfHalt =
      (.next { s.refDrf with unit := .drf } : Host.Outcome State Fault Refusal) := by
  have h : s.refDrf = _ := if_pos hf
  have hclass : s.refClass { s.L.drf with isEmpty := false } = .halt := refClass_of_content .drf hc
  have hmodel := drfHalt_in_drf (s.setIsEmpty .drf false)
  rw [h]
  simp only [hclass, reduceCtorEq, if_true, if_false, State.refReady, Bool.not_true, Bool.false_eq_true, refBranchy_eq]
  split
  · next hb => exact congrArg _ (hmodel.trans (if_pos hb))
  · next hb => exact congrArg _ (hmodel.trans (if_neg hb))

theorem refDrf_performs (hf : s.S0.drf.fresh .drf = true) :
    performContent (s.content (s.latch .drf)) { s.setIsEmpty .drf false with unit := .drf } =
      .next { s.refDrf with unit := .drf } := by
  cases hc : s.content (s.latch .drf) with
  | illegal | endOfCode => exact refDrf_on_sources hf hc nofun nofun
  | instr i =>
    cases i with
    | bz => exact refDrf_on_cc hf (.inl hc)
    | bnz => exact refDrf_on_cc hf (.inr hc)
    | halt => exact refDrf_on_halt hf hc
    | _ => exact refDrf_on_sources hf hc nofun nofun

/-- The listing's address check is the model's (R124). -/
theorem refFetch_raises_iff (s : State) :
    (s.pc.toNat < s.launch.codeBase ∨ (s.pc.toNat - s.launch.codeBase) % 4 ≠ 0) ↔ s.codeAddrOk s.pc = false := by
  rw [← Bool.not_eq_true, codeAddrOk_iff, not_and_or, Nat.not_le]

theorem refFetch_eq (s : State) : ({ s with unit := .f } : State).fetch = { s.refFetch with unit := .f } := by
  cases hst : s.L.drf.stalled with
  | true =>
    have h : s.refFetch = { s with L := { s.L with f := { s.L.f with isEmpty := true } } } :=
      if_neg (by simp [hst])
    rw [fetch_of_stalled hst, h]
  | false =>
    have h : s.refFetch = _ := if_pos hst
    rw [h]
    cases hok : s.codeAddrOk s.pc with
    | false =>
      rw [fetch_of_not_codeAddrOk hst hok, if_pos ((refFetch_raises_iff s).mpr hok)]
      rfl
    | true =>
      rw [fetch_of_codeAddrOk hst hok, if_neg fun hbad => by simp [(refFetch_raises_iff s).mp hbad] at hok]
      rfl

/-- Every unit does what the listing does, but for the record of the unit that ran (R138). -/
theorem runUnit_eq_ref (u : Stage) (hr : s.runState = .running) : runUnit u s = .next { s.refUnit u with unit := u } := by
  by_cases hu : u = .f
  · subst hu
    rw [runUnit_fetch s hr, performContent_f]
    exact congrArg _ (refFetch_eq s)
  · obtain ⟨hf, h⟩ | ⟨hf, h⟩ := runUnit_latch_cases u s hu hr <;> rw [h]
    · cases u with
      | f => exact absurd rfl hu
      | drf => exact refDrf_performs hf
      | ex1 => exact refEx1_performs hf
      | ex2 => exact refEx2_performs hf
      | mem1 => exact refMem1_performs hf
      | mem2 => exact refMem2_performs hf
      | wb => exact refWb_performs hf
    · exact congrArg _ (refUnit_idle hu hf)

/-! ### The cycle -/

/-- The two states agree but for the record of the unit that ran last. -/
def Agree (s r : State) : Prop := ∃ v, r = { s with unit := v }

theorem runUnit_eq_latchUnit (hu : u ≠ .f) (hr : s.runState = .running) : runUnit u s = latchUnit u s := by
  cases u <;> simp_all [runUnit]

/-- A unit does not look at the record of the unit that ran before it. -/
theorem runUnit_unit (u v : Stage) (hr : s.runState = .running) : runUnit u { s with unit := v } = runUnit u s := by
  by_cases hu : u = .f
  · subst hu
    rw [runUnit_fetch s hr, runUnit_fetch { s with unit := v } hr]
    rfl
  · rw [runUnit_eq_latchUnit hu hr, runUnit_eq_latchUnit (s := { s with unit := v }) hu hr]
    rfl

/-- A unit keeps the agreement (R138, R204). -/
theorem runUnit_agree (u : Stage) (h : Agree s r) :
    ∃ m, runUnit u s = .next m ∧ Agree m (r.refThen fun r => r.refUnit u) := by
  obtain ⟨v, rfl⟩ := h
  obtain hr | hr := stopped_or_running s
  · exact ⟨s, runUnit_stopped u s hr, v, if_pos hr⟩
  · have href := runUnit_eq_ref (s := { s with unit := v }) u hr
    rw [runUnit_unit u v hr] at href
    refine ⟨_, href, (({ s with unit := v } : State).refUnit u).unit, ?_⟩
    rw [State.refThen, if_neg (by simp [hr])]

theorem runUnits_agree (us : List Stage) (h : Agree s r) :
    ∃ m, runUnits us s = .next m ∧ Agree m (us.foldl (fun r u => r.refThen fun r => r.refUnit u) r) := by
  induction us generalizing s r with
  | nil => exact ⟨s, rfl, h⟩
  | cons u us ih =>
    obtain ⟨n, hn, hagree⟩ := runUnit_agree u h
    obtain ⟨m, hm, hend⟩ := ih hagree
    exact ⟨m, by rw [runUnits, hn]; exact hm, hend⟩

/-- The restore of the listing (R127). -/
theorem refRestore_eq : State.refRestore = State.restoreValid := by
  funext s
  cases h : s.e1Done with
  | none => simp only [State.refRestore, State.restoreValid, h]
  | some l => simp only [State.refRestore, State.restoreValid, h, refClass_eq, Bool.and_eq_true]

theorem applyHalt_none (h : s.haltSev = .none) : s.applyHalt = s := by simp only [State.applyHalt, h]

theorem applyHalt_weak (h : s.haltSev = .weak) :
    s.applyHalt = ({ s with pc := BitVec.ofNat 32 s.endAddr } : State).clearFront := by
  simp only [State.applyHalt, h]

theorem applyHalt_strong (h : s.haltSev = .strong) :
    s.applyHalt = (({ s with pc := BitVec.ofNat 32 s.endAddr } : State).clearFront.restoreValid).clearExecute := by
  simp only [State.applyHalt, h]

theorem haltSev_cases (s : State) : s.haltSev = .none ∨ s.haltSev = .weak ∨ s.haltSev = .strong := by
  cases s.haltSev <;> simp

/-- The halt of the listing: its two tests on the severity are the model's three cases (R126). -/
theorem refHalt_eq (s : State) :
    (let t : State := if 1 ≤ s.haltSev.toNat then
        { s with
          pc := BitVec.ofNat 32 (s.launch.codeBase + 4 * s.imem.length)
          L := { s.L with f := s.L.f.flush, drf := s.L.drf.flush } }
      else s
      if t.haltSev.toNat = 2 then
        let t := t.restoreValid
        { t with L := { t.L with ex1 := t.L.ex1.flush, ex2 := t.L.ex2.flush } }
      else t) = s.applyHalt := by
  obtain h | h | h := haltSev_cases s
  · have hfront : ¬ 1 ≤ s.haltSev.toNat := by rw [h]; decide
    have hstrong : ¬ s.haltSev.toNat = 2 := by rw [h]; decide
    rw [applyHalt_none h]
    simp only [if_neg hfront, if_neg hstrong]
  · have hfront : 1 ≤ s.haltSev.toNat := by rw [h]; decide
    have hstrong : ¬ s.haltSev.toNat = 2 := by rw [h]; decide
    rw [applyHalt_weak h]
    simp only [if_pos hfront, if_neg hstrong]
    rfl
  · have hfront : 1 ≤ s.haltSev.toNat := by rw [h]; decide
    have hstrong : s.haltSev.toNat = 2 := by rw [h]; decide
    rw [applyHalt_strong h]
    simp only [if_pos hfront, if_pos hstrong]
    rfl

/-- Reconciliation and the end of the cycle are those of the listing (R125 to R129). -/
theorem refReconcile_eq (s : State) : s.refReconcile = s.reconcile.endCycle := by
  have hend (t : State) : (if t.stopReq = .halt then { t with runState := .stopped, outcome := .halted }
      else if t.stopReq = .drain then { t with runState := .stopped, outcome := .drained }
      else { t with clock := t.clock + 1 }) = t.endCycle := by
    cases h : t.stopReq <;> simp [State.endCycle, h]
  rw [State.refReconcile, refRestore_eq]
  exact (hend _).trans (congrArg (fun t : State =>
    State.endCycle { t with flushPending := false, flushTarget := 0, haltSev := .none }) (refHalt_eq s.applyFlush))

/-! Reconciliation and the end of the cycle do not look at the record of the unit that ran last. -/

theorem restoreValid_unit (s : State) (v : Stage) :
    ({ s with unit := v } : State).restoreValid = { s.restoreValid with unit := v } := by
  rw [restoreValid_eq s, restoreValid_eq { s with unit := v }]
  exact congrArg (fun x => ({ s with valid := x, unit := v } : State)) (restoreValid_congr rfl rfl rfl rfl)

theorem applyFlush_pending (h : s.flushPending = true) :
    s.applyFlush = ({ s.restoreValid with pc := s.restoreValid.flushTarget } : State).clearFront.clearExecute := if_pos h

theorem applyFlush_none (h : s.flushPending = false) : s.applyFlush = s := if_neg (Bool.eq_false_iff.mp h)

theorem applyFlush_unit (s : State) (v : Stage) :
    ({ s with unit := v } : State).applyFlush = { s.applyFlush with unit := v } := by
  obtain h | h := Bool.eq_false_or_eq_true s.flushPending
  · rw [applyFlush_pending h, applyFlush_pending (s := { s with unit := v }) h, restoreValid_unit]
    rfl
  · rw [applyFlush_none h, applyFlush_none (s := { s with unit := v }) h]

theorem applyHalt_unit (s : State) (v : Stage) :
    ({ s with unit := v } : State).applyHalt = { s.applyHalt with unit := v } := by
  obtain h | h | h := haltSev_cases s
  · rw [applyHalt_none h, applyHalt_none (s := { s with unit := v }) h]
  · rw [applyHalt_weak h, applyHalt_weak (s := { s with unit := v }) h]
    rfl
  · have hrestore := restoreValid_unit ({ s with pc := BitVec.ofNat 32 s.endAddr } : State).clearFront v
    rw [applyHalt_strong h, applyHalt_strong (s := { s with unit := v }) h]
    exact congrArg State.clearExecute hrestore

theorem endCycle_unit (s : State) (v : Stage) :
    ({ s with unit := v } : State).endCycle = { s.endCycle with unit := v } := by
  unfold State.endCycle
  cases s.stopReq <;> rfl

theorem reconcile_endCycle_unit (s : State) (v : Stage) :
    ({ s with unit := v } : State).reconcile.endCycle = { s.reconcile.endCycle with unit := v } := by
  rw [← endCycle_unit, State.reconcile, applyFlush_unit, applyHalt_unit]
  rfl

theorem finishCycle_agree (h : Agree s r) : Agree s.finishCycle (r.refThen State.refReconcile) := by
  obtain ⟨v, rfl⟩ := h
  obtain hr | hr := stopped_or_running s
  · rw [finishCycle_stopped hr]
    exact ⟨v, if_pos hr⟩
  · rw [finishCycle_running hr, State.refThen, if_neg (by simp [hr]), refReconcile_eq]
    exact ⟨v, reconcile_endCycle_unit s v⟩

/-- The cycle of the listing: its units in turn, then its reconciliation (R100, R138). -/
theorem refCycle_eq (s : State) : s.refCycle =
      (unitOrder.foldl (fun r u => r.refThen fun r => r.refUnit u) s.beginCycle).refThen State.refReconcile := by
  unfold State.refCycle
  simp only [unitOrder, List.foldl, State.refUnit]
  rfl

/-- Settles O46: unit by unit, then reconciliation. -/
theorem cycleAgreesWithThePseudocode : Obligations.CycleAgreesWithThePseudocode := by
  unfold Obligations.CycleAgreesWithThePseudocode
  intro s
  obtain ⟨m, hm, hagree⟩ := runUnits_agree (s := s.beginCycle) (r := s.beginCycle) unitOrder ⟨s.unit, rfl⟩
  obtain ⟨v, hend⟩ := finishCycle_agree hagree
  refine ⟨m.finishCycle, by rw [cycle, hm, andThen_next], ?_⟩
  rw [refCycle_eq, hend]

end Sys2Proof.Machine

/-!
# One instruction alone in the pipeline (spec 40_pipeline.md section 12; 70_reset_and_hazards.md section 4)

Behind the last instruction of the program Fetch hands over END latches, which do nothing before WB. So in each of the six
cycles after its fetch one unit works, that of the instruction; the others are idle or pass an END latch on.
-/

namespace Sys2Proof.Machine

open Sys2Proof.Claims

variable {s t a b m k : State} {u v p d : Stage} {i : Instr}

/-! ### Units that do nothing -/

/-- No control signal is raised and the run goes on as it did. -/
structure Calm (s t : State) : Prop where
  flushPending : t.flushPending = s.flushPending
  flushTarget : t.flushTarget = s.flushTarget
  haltSev : t.haltSev = s.haltSev
  stopReq : t.stopReq = s.stopReq
  runState : t.runState = s.runState

theorem Calm.trans (h : Calm s m) (h' : Calm m t) : Calm s t :=
  ⟨h'.flushPending.trans h.flushPending, h'.flushTarget.trans h.flushTarget, h'.haltSev.trans h.haltSev,
    h'.stopReq.trans h.stopReq, h'.runState.trans h.runState⟩

/-- Nothing happens to the registers, the memory, the counter and the signals. -/
structure Quiet (s t : State) : Prop where
  x : t.x = s.x
  valid : t.valid = s.valid
  dmem : t.dmem = s.dmem
  insCompleted : t.insCompleted = s.insCompleted
  calm : Calm s t

theorem Quiet.refl (s : State) : Quiet s s := ⟨rfl, rfl, rfl, rfl, rfl, rfl, rfl, rfl, rfl⟩

theorem Quiet.trans (h : Quiet s m) (h' : Quiet m t) : Quiet s t :=
  ⟨h'.x.trans h.x, h'.valid.trans h.valid, h'.dmem.trans h.dmem, h'.insCompleted.trans h.insCompleted,
    h.calm.trans h'.calm⟩

/-- An END latch is passed on by every stage before WB, and nothing else happens (R78). -/
theorem performContent_endOfCode_quiet (hf : u ≠ .f) (hwb : u ≠ .wb)
    (h : performContent .endOfCode { s with unit := u } = .next t) : Quiet s t := by
  cases u with
  | f => exact absurd rfl hf
  | wb => exact absurd rfl hwb
  | drf =>
    obtain rfl := next_unique (performContent_no_instr (.inr rfl) s).1 h
    exact ⟨rfl, rfl, rfl, rfl, rfl, rfl, rfl, rfl, rfl⟩
  | ex1 =>
    obtain rfl := next_unique (performContent_no_instr (.inr rfl) s).2 h
    exact ⟨rfl, rfl, rfl, rfl, rfl, rfl, rfl, rfl, rfl⟩
  | ex2 =>
    obtain rfl := next_unique (performContent_ex2_pass (c := .endOfCode) nofun nofun nofun s) h
    exact ⟨rfl, rfl, rfl, rfl, rfl, rfl, rfl, rfl, rfl⟩
  | mem1 =>
    obtain rfl := next_unique (performContent_mem1 .endOfCode s) h
    exact ⟨rfl, rfl, rfl, rfl, rfl, rfl, rfl, rfl, rfl⟩
  | mem2 =>
    obtain rfl := next_unique (performContent_mem2_pass (c := .endOfCode) nofun nofun nofun nofun s) h
    exact ⟨rfl, rfl, rfl, rfl, rfl, rfl, rfl, rfl, rfl⟩

/-- The latch of a stage holds nothing that works there: it is not fresh, or an END latch before WB. -/
def Resting (s : State) (u : Stage) : Prop :=
  (s.S0.get u).fresh u = true → u ≠ .wb ∧ s.content (s.latch u) = .endOfCode

theorem runUnit_quiet (hf : u ≠ .f) (hrest : Resting s u) (h : runUnit u s = .next t) : Quiet s t := by
  obtain rfl | rfl | ⟨hfresh, hp⟩ := runUnit_latch_inv hf h
  · exact .refl _
  · exact ⟨rfl, rfl, rfl, rfl, rfl, rfl, rfl, rfl, rfl⟩
  · obtain ⟨hwb, hc⟩ := hrest hfresh
    rw [hc] at hp
    have hflag : Quiet s (s.setIsEmpty u false) := ⟨rfl, rfl, rfl, rfl, rfl, rfl, rfl, rfl, rfl⟩
    exact hflag.trans (performContent_endOfCode_quiet hf hwb hp)

/-- Units of which none works do nothing, the earlier leaving the latches of the later alone (R100). -/
theorem runUnits_quiet {us : List Stage} (hf : .f ∉ us) (horder : us.Pairwise fun w v => w.touches v = false)
    (hrest : ∀ v ∈ us, Resting s v) (h : runUnits us s = .next t) : Quiet s t := by
  induction us generalizing s with
  | nil => exact Host.Outcome.next.inj h ▸ .refl s
  | cons u us ih =>
    obtain ⟨m, hm, hr⟩ := andThen_eq_next h
    rw [List.pairwise_cons] at horder
    have hframe := runUnit_unitsFrame hm
    have hrest' : ∀ v ∈ us, Resting m v := by
      intro v hv
      have hlatch : m.latch v = s.latch v := hframe.latch v (by simpa using horder.1 v hv)
      rw [Resting, hframe.S0, hlatch, content_congr hframe.launch hframe.imem]
      exact hrest v (.tail u hv)
    exact (runUnit_quiet (fun hu => hf (hu ▸ .head us)) (hrest u (.head us)) hm).trans
      (ih (fun h => hf (.tail u h)) horder.2 hrest' hr)

/-! ### The units before Fetch -/

/-- The units of a cycle but Fetch. -/
def backOrder : List Stage := [.wb, .mem2, .mem1, .ex2, .ex1, .drf]

theorem mem_backOrder (hu : u ≠ .f) : u ∈ backOrder := by cases u <;> simp_all [backOrder]

/-- A unit leaves alone the latches of the units after it, and they leave alone the latch it hands on to (R100, R103). -/
theorem backOrder_untouched :
    backOrder.Pairwise fun w v => w.touches v = false ∧ w ≠ v ∧ ∀ d ∈ w.downstream, v.touches d = false := by decide

/-- A working unit stands between units of which none works. -/
theorem working_unit (hu : u ≠ .f) (h : runUnits backOrder s.beginCycle = .next k)
    (hrest : ∀ v, v ≠ .f → v ≠ u → Resting s.beginCycle v) :
    ∃ us vs a b, UnitInCycle u us vs s a b k ∧ Quiet s.beginCycle a ∧ Quiet b k ∧
      ∀ d, u.downstream = some d → k.latch d = b.latch d := by
  obtain ⟨us, vs, horder⟩ := List.append_of_mem (mem_backOrder hu)
  have hpairs := backOrder_untouched
  rw [horder, List.pairwise_append, List.pairwise_cons] at hpairs
  obtain ⟨hus, ⟨huvs, hvs⟩, hcross⟩ := hpairs
  have hnotf : .f ∉ us ++ u :: vs := by rw [← horder]; decide
  simp only [List.mem_append, List.mem_cons, not_or] at hnotf
  obtain ⟨hfus, -, hfvs⟩ := hnotf
  obtain ⟨a, b, hin⟩ := unit_in_cycle us vs h horder fun v hv => (hcross v hv u (.head vs)).1
  have hquiet : Quiet s.beginCycle a := runUnits_quiet hfus (hus.imp And.left)
    (fun v hv => hrest v (fun h => hfus (h ▸ hv)) (hcross v hv u (.head vs)).2.1) hin.before
  have hbefore := runUnits_unitsFrame hin.before
  have hunit := runUnit_unitsFrame hin.unit
  refine ⟨us, vs, a, b, hin, hquiet, runUnits_quiet hfvs (hvs.imp And.left) (fun v hv => ?_) hin.after, fun d hd =>
    (runUnits_unitsFrame hin.after).latch d fun w hw => (huvs w hw).2.2 d hd⟩
  have hlatch : b.latch v = s.beginCycle.latch v :=
    (hunit.latch v (by simpa using (huvs v hv).1)).trans
      (hbefore.latch v fun w hw => (hcross w hw v (.tail u hv)).1)
  rw [Resting, hunit.S0, hbefore.S0, hlatch, content_congr hunit.launch hunit.imem, content_congr hbefore.launch hbefore.imem]
  exact hrest v (fun h => hfvs (h ▸ hv)) (huvs v hv).2.1.symm

/-- What is fresh in a stage after the units was fresh in the stage upstream before them (R103). -/
theorem UnitInCycle.fresh_upstream {us vs : List Stage} (h : UnitInCycle p (us ++ [v]) vs s a b k) (hp : p ≠ .f)
    (hdown : p.downstream = some v) (hus : ∀ w ∈ us, w.touches v = false) (hvs : ∀ w ∈ vs, w.touches v = false)
    (hk : k.runState = .running) (hstall : p = .drf → b.L.drf.stalled = false) (hf : (k.latch v).fresh v = true) :
    (s.latch p).fresh p = true ∧ (k.latch v).pc = (s.latch p).pc ∧ (k.latch v).fields = (s.latch p).fields := by
  have hv : v ≠ .f ∧ v ≠ .drf := by cases p <;> cases v <;> simp_all [Stage.downstream]
  have hkeep : k.latch v = b.latch v := (runUnits_unitsFrame h.after).latch v hvs
  obtain ⟨ha, -⟩ := h.running hk
  rw [hkeep] at hf ⊢
  cases hfp : (s.latch p).fresh p with
  | true =>
    have hon := h.handedOn hp hdown hk hfp hstall
    exact ⟨rfl, hon.pc, hon.fields⟩
  | false =>
    obtain rfl := h.idle hp ha hfp
    obtain ⟨n, a', hprev⟩ := unit_in_cycle (u := v) us [] h.before (by simp) hus
    obtain rfl := Host.Outcome.next.inj hprev.after
    have hnot := hprev.not_fresh hv.1 ha (fun hd => absurd hd hv.2)
    have hne : p ≠ v := by rintro rfl; cases p <;> simp [Stage.downstream] at hdown
    rw [latch_setIsEmpty, if_neg hne] at hf
    exact absurd (hnot.symm.trans hf) (by decide)

/-- The stage upstream of a stage from EX1 down, before the units, is where a fresh content after them comes from (R103). -/
theorem fresh_before_fetch (h : runUnits backOrder s.beginCycle = .next k) (hk : k.runState = .running)
    (hstall : k.L.drf.stalled = false) (hv : v ≠ .f) (hdrf : v ≠ .drf) (hf : (k.latch v).fresh v = true) :
    ∃ p, p ≠ .f ∧ p.downstream = some v ∧ (s.latch p).fresh p = true ∧ (k.latch v).pc = (s.latch p).pc ∧
      (k.latch v).fields = (s.latch p).fields := by
  have hcome {p : Stage} {us vs : List Stage} (horder : backOrder = us ++ v :: p :: vs) (hp : p ≠ .f)
      (hdown : p.downstream = some v) (hus : ∀ w ∈ us ++ [v], w.touches p = false) (hus' : ∀ w ∈ us, w.touches v = false)
      (hvs : ∀ w ∈ vs, w.touches v = false) (hlast : p = .drf → vs = []) :
      ∃ p, p ≠ .f ∧ p.downstream = some v ∧ (s.latch p).fresh p = true ∧ (k.latch v).pc = (s.latch p).pc ∧
        (k.latch v).fields = (s.latch p).fields := by
    obtain ⟨a, b, hu⟩ := unit_in_cycle (u := p) (us ++ [v]) vs h (by simpa using horder) hus
    refine ⟨p, hp, hdown, hu.fresh_upstream hp hdown hus' hvs hk (fun hd => ?_) hf⟩
    obtain rfl := hlast hd
    obtain rfl := Host.Outcome.next.inj hu.after
    exact hstall
  cases v with
  | f => exact absurd rfl hv
  | drf => exact absurd rfl hdrf
  | ex1 => exact hcome (p := .drf) (us := [.wb, .mem2, .mem1, .ex2]) rfl nofun rfl (by decide) (by decide) nofun fun _ => rfl
  | ex2 => exact hcome (p := .ex1) (us := [.wb, .mem2, .mem1]) rfl nofun rfl (by decide) (by decide) (by decide) nofun
  | mem1 => exact hcome (p := .ex2) (us := [.wb, .mem2]) rfl nofun rfl (by decide) (by decide) (by decide) nofun
  | mem2 => exact hcome (p := .mem1) (us := [.wb]) rfl nofun rfl (by decide) (by decide) (by decide) nofun
  | wb => exact hcome (p := .mem2) (us := []) rfl nofun rfl (by decide) (by decide) (by decide) nofun

/-- DRF does not stall on an END latch, nor on an instruction that no arithmetic instruction can hold back and whose sources
are VALID (R115, R116). -/
theorem unstalled_before_fetch (h : runUnits backOrder s.beginCycle = .next k) (hk : k.runState = .running)
    (hst : s.L.drf.stalled = false)
    (hends : (s.latch .drf).fresh .drf = true → s.content (s.latch .drf) = .endOfCode ∨
      ∃ i, s.content (s.latch .drf) = .instr i ∧ i.cls ≠ .branch ∧ i ≠ .halt ∧ (∀ j, s.readV j = true) ∧
        ∀ v, v ≠ .f → v ≠ .drf → Resting s.beginCycle v) : k.L.drf.stalled = false := by
  obtain ⟨a, b, hu⟩ := unit_in_cycle (u := .drf) [.wb, .mem2, .mem1, .ex2, .ex1] [] h rfl (by decide)
  obtain rfl := Host.Outcome.next.inj hu.after
  obtain ⟨ha, -⟩ := hu.running hk
  have hlatch : a.L.drf = s.L.drf := hu.latch
  cases hf : (s.latch .drf).fresh .drf with
  | false =>
    obtain rfl := hu.idle (by decide) ha hf
    exact (congrArg Latch.stalled hlatch).trans hst
  | true =>
    have hp := hu.performs (by decide) ha hf
    obtain hc | ⟨i, hc, hb, hh, hvalid, hrest⟩ := hends hf <;> rw [hc] at hp
    · obtain rfl := next_unique hp (performContent_no_instr (.inr rfl) _).1
      rfl
    · have hquiet : Quiet s.beginCycle a := runUnits_quiet (by decide) (by decide)
        (fun v hv => hrest v (ne_of_mem_of_not_mem hv (by decide)) (ne_of_mem_of_not_mem hv (by decide))) hu.before
      have hall : AllValid (a.setIsEmpty .drf false) (sourcesOf i) := fun r _ => by
        have hr := hvalid (regSlot r)
        rwa [State.readV, ← show a.valid = s.valid from hquiet.valid] at hr
      obtain rfl := next_unique hp (decodeReadsValidSourcesAndAdvances i _ hb hh hall)
      rfl

/-- A cycle whose units before Fetch raise no signal and do not stall ends with its fetch and the clock (R121, R128, R129). -/
theorem step_of_calm (hc : s.CycleNext) (h : runUnits backOrder s.beginCycle = .next k) (hcalm : Calm s.beginCycle k)
    (hst : k.L.drf.stalled = false) (hok : s.codeAddrOk s.pc = true) :
    step s = .next { afterFetch k k.fetchedLatch.fields with clock := s.clock + 1 } := by
  obtain ⟨t, ht⟩ := (everyStepCompletes s).1 (launchOk_of_cycleNext hc)
  obtain ⟨m, hm, rfl⟩ := step_of_cycleNext hc ht
  obtain ⟨k', hk', hlast⟩ := runUnits_append_eq_next (us := backOrder) (vs := [.f]) hm
  obtain rfl := next_unique h hk'
  obtain ⟨m', hfetch, hnil⟩ := andThen_eq_next hlast
  obtain rfl := Host.Outcome.next.inj hnil
  have hframe := runUnits_unitsFrame h
  have hrun : k.runState = .running := hcalm.runState.trans hc.1
  have hpc : k.pc = s.pc := hframe.pc (by decide)
  have hok : k.codeAddrOk k.pc = true := by
    rwa [hpc, codeAddrOk_congr hframe.launch]
  have hmodel := (runUnit_fetch k hrun).trans ((performContent_f _ k).trans (congrArg _ (fetch_of_codeAddrOk hst hok)))
  obtain rfl := next_unique hfetch hmodel
  have hfin := finishCycle_quiet (s := afterFetch k k.fetchedLatch.fields) hrun hcalm.flushPending hcalm.flushTarget
    hcalm.haltSev hcalm.stopReq
  have hclock : (afterFetch k k.fetchedLatch.fields).clock = s.clock := hframe.clock
  rw [ht, hfin, hclock]

end Sys2Proof.Machine

/-!
# The seven cycles of a lone instruction (spec 40_pipeline.md section 12; 70_reset_and_hazards.md section 4)

`Lone` is what the start of each cycle looks like, by the stage that the instruction has reached; one lemma takes a cycle from
the one stage to the next, and the life of the instruction (the content on its way, above) says what it does there.
-/

namespace Sys2Proof.Machine

open Sys2Proof.Claims

variable {s₀ s t a b m k : State} {u v p d : Stage} {i : Instr}

/-- How far down the pipeline a stage stands. -/
def Stage.depth : Stage → Nat
  | .f => 0
  | .drf => 1
  | .ex1 => 2
  | .ex2 => 3
  | .mem1 => 4
  | .mem2 => 5
  | .wb => 6

theorem depth_downstream (h : p.downstream = some d) : d.depth = p.depth + 1 := by
  cases p <;> cases d <;> simp_all [Stage.downstream, Stage.depth]

theorem depth_le (u : Stage) : u.depth ≤ 6 := by cases u <;> decide

theorem one_le_depth (hu : u ≠ .f) : 1 ≤ u.depth := by revert hu; cases u <;> decide

/-- The address after one of the program's grid is on the grid, while it is a 32-bit address (R53, R124). -/
theorem next_address {c : Word} (hok : s.codeAddrOk c = true) (hroom : c.toNat + 4 < 2 ^ 32) :
    (c + 4).toNat = c.toNat + 4 ∧ s.codeAddrOk (c + 4) = true := by
  have hnext : (c + 4).toNat = c.toNat + 4 := by
    rw [BitVec.toNat_add]
    exact Nat.mod_eq_of_lt hroom
  rw [codeAddrOk_iff] at hok ⊢
  omega

/-- Downstream of a stage from DRF down stand EX1 to WB. -/
theorem ne_front_of_downstream (h : u.downstream = some d) (hu : u ≠ .f) : d ≠ .f ∧ d ≠ .drf := by
  revert h hu; cases u <;> cases d <;> decide

/-- Fetch writes the latches of F and DRF alone (R122). -/
theorem afterFetch_latch (s : State) (f : Fields) (hf : v ≠ .f) (hdrf : v ≠ .drf) :
    (afterFetch s f).latch v = s.latch v := by
  cases v with
  | f => exact absurd rfl hf
  | drf => exact absurd rfl hdrf
  | _ => rfl

/-- A state of the run that `s₀` began, at the start of the cycle in which the instruction `i`, which was fetched last, stands
in the latch of `u`: nothing is in flight ahead of it and END latches follow it. -/
structure Lone (s₀ : State) (i : Instr) (u : Stage) (s : State) : Prop where
  launch : s.launch = s₀.launch
  imem : s.imem = s₀.imem
  running : s.runState = .running
  clock : s.clock = s₀.clock + u.depth
  insCompleted : s.insCompleted = s₀.insCompleted
  x : s.x = s₀.x
  holds : Holds s u i
  ends : ∀ v, v ≠ .f → v ≠ u → (s.latch v).fresh v = true → v.depth < u.depth ∧ s.content (s.latch v) = .endOfCode
  unstalled : s.L.drf.stalled = false
  pcOk : s.codeAddrOk s.pc = true
  pc : s.pc.toNat + 4 = s.endAddr + 4 * u.depth

/-- The stages that do not hold the instruction have no work. -/
theorem Lone.resting (h : Lone s₀ i u s) (hv : v ≠ .f) (hvu : v ≠ u) : Resting s.beginCycle v := by
  intro hf
  obtain ⟨hdepth, hc⟩ := h.ends v hv hvu hf
  refine ⟨?_, hc⟩
  rintro rfl
  exact absurd hdepth (Nat.not_lt.mpr (depth_le u))

/-- A launch the host may start, with room for seven cycles, of an instruction that transfers no control. -/
structure LoneRun (s₀ : State) (i : Instr) : Prop where
  ok : s₀.launchOk = true
  bound : s₀.clock + 7 ≤ s₀.launch.maxCycles
  branch : i.cls ≠ .branch
  jump : i.cls ≠ .jump
  halt : i.cls ≠ .halt

theorem LoneRun.ne_halt (h : LoneRun s₀ i) : i ≠ .halt := by
  rintro rfl
  exact h.halt rfl

/-- The addresses past the program that seven cycles fetch from are 32-bit addresses (R6). -/
theorem room_of_launchOk (h : s.launchOk = true) : 0 < s.launch.codeBase ∧ s.endAddr + 64 ≤ 2 ^ 32 := by
  simp only [State.launchOk, Launch.ok, Launch.parametersOk, Bool.and_eq_true, decide_eq_true_eq] at h
  exact ⟨h.1.1.1.1, h.1.1.1.2⟩

theorem Lone.launchOk (h : Lone s₀ i u s) (hr : LoneRun s₀ i) : s.launchOk = true := by
  rw [State.launchOk, State.progLen, h.launch, h.imem]
  exact hr.ok

/-- The next step is a cycle, while the bound is far enough. -/
theorem Lone.cycleNext (h : Lone s₀ i u s) (hr : LoneRun s₀ i) : s.CycleNext := by
  refine ⟨h.running, h.launchOk hr, ?_⟩
  rw [h.clock, h.launch]
  have := depth_le u
  have := hr.bound
  omega

/-- An instruction that transfers no control raises no signal in any stage (R106, R111, R112, R118). -/
theorem exec_calm (hr : LoneRun s₀ i) (h : exec i { s with unit := u } = .next t) (hrun : t.runState = s.runState) :
    Calm s t := by
  have hne : Content.instr i ≠ .instr .halt := by simpa using hr.ne_halt
  obtain ⟨hpending, htarget⟩ := performContent_flush (c := .instr i) h (.inr (branchy_eq_false hr.branch hr.jump))
  exact ⟨hpending, htarget, performContent_haltSev (c := .instr i) h hne, exec_stopReq h hr.ne_halt, hrun⟩

/-- The units of a cycle before Fetch have moved the content of `u` to `d` (R103). -/
structure Moved (u d : Stage) (s k : State) : Prop where
  pc : (k.latch d).pc = (s.latch u).pc
  fields : (k.latch d).fields = (s.latch u).fields
  done : (k.latch d).done = some u

/-- The start of the next cycle (R102, R103, R123). -/
theorem Lone.next (h : Lone s₀ i u s) (hd : u.downstream = some d) (hu : u ≠ .f) (hroom : s.endAddr + 64 ≤ 2 ^ 32)
    (hk : runUnits backOrder s.beginCycle = .next k) (hrun : k.runState = .running) (hst : k.L.drf.stalled = false)
    (hmoved : Moved u d s k) (hx : k.x = s.x) (hcount : k.insCompleted = s.insCompleted) :
    Lone s₀ i d { afterFetch k k.fetchedLatch.fields with clock := s.clock + 1 } := by
  have hframe := runUnits_unitsFrame hk
  have hlaunch : k.launch = s.launch := hframe.launch
  have himem : k.imem = s.imem := hframe.imem
  have hkpc : k.pc = s.pc := hframe.pc (by decide)
  have hdepth := depth_downstream hd
  have hle := depth_le d
  have hend : k.endAddr = s.endAddr := endAddr_congr hlaunch himem
  have hpc := h.pc
  obtain ⟨hpcnext, hoknext⟩ := next_address h.pcOk (show s.pc.toNat + 4 < 2 ^ 32 by omega)
  have hpos := one_le_depth hu
  have hdne := ne_front_of_downstream hd hu
  have hlatch {v : Stage} (hf : v ≠ .f) (hdrf : v ≠ .drf) :
      ({ afterFetch k k.fetchedLatch.fields with clock := s.clock + 1 } : State).latch v = k.latch v :=
    afterFetch_latch k _ hf hdrf
  have hcontent (l : Latch) : ({ afterFetch k k.fetchedLatch.fields with clock := s.clock + 1 } : State).content l =
      s.content l := content_congr hlaunch himem l
  constructor
  case launch => exact hlaunch.trans h.launch
  case imem => exact himem.trans h.imem
  case running => exact hrun
  case clock =>
    rw [hdepth, ← Nat.add_assoc, ← h.clock]
  case insCompleted => exact hcount.trans h.insCompleted
  case x => exact hx.trans h.x
  case unstalled => rfl
  case holds =>
    have hne : (k.latch d).pc ≠ 0 := hmoved.pc ▸ pc_ne_zero_of_fresh h.holds.1
    constructor
    · rw [hlatch hdne.1 hdne.2]
      simpa [Latch.fresh, upstream_of_downstream hd, hmoved.done] using hne
    · rw [hlatch hdne.1 hdne.2, hcontent, content_of_fields s hmoved.pc hmoved.fields]
      exact h.holds.2
  case ends =>
    intro v hv hvd hf
    rw [hcontent]
    by_cases hdrf : v = .drf
    · subst hdrf
      have hpast : s.endAddr ≤ k.pc.toNat := by
        rw [hkpc]
        omega
      exact ⟨by rw [hdepth]; exact Nat.lt_succ_of_le hpos, content_of_end hpast⟩
    · rw [hlatch hv hdrf] at hf ⊢
      obtain ⟨p, hp, hpd, hpf, hppc, hpfields⟩ := fresh_before_fetch hk hrun hst hv hdrf hf
      have hpu : p ≠ u := by
        rintro rfl
        exact hvd (Option.some.inj (hpd.symm.trans hd))
      obtain ⟨hless, hc⟩ := h.ends p hp hpu hpf
      refine ⟨by rw [hdepth, depth_downstream hpd]; omega, ?_⟩
      rw [content_of_fields s hppc hpfields]
      exact hc
  case pcOk =>
    have hok : k.codeAddrOk (k.pc + 4) = true := by rwa [hkpc, codeAddrOk_congr hlaunch]
    exact hok
  case pc =>
    change (k.pc + 4).toNat + 4 = k.endAddr + 4 * d.depth
    rw [hkpc, hpcnext, hend, hdepth]
    omega

/-- A cycle from `s` to `t` in which the unit of `u` alone works: it executes `i`, from `a` to `b`. -/
structure WorkedCycle (u : Stage) (i : Instr) (s a b t : State) : Prop where
  step : step s = .next t
  exec : exec i { a with unit := u } = .next b
  before : Quiet s.beginCycle a
  launch : a.launch = s.launch
  latch : a.latch u = { s.latch u with isEmpty := false }
  x : t.x = b.x
  valid : t.valid = b.valid
  dmem : t.dmem = b.dmem
  insCompleted : t.insCompleted = b.insCompleted
  clock : t.clock = s.clock + 1
  running : t.runState = .running
  handed : ∀ d, u.downstream = some d → t.latch d = b.latch d

/-- The cycle of a lone instruction: the unit of its stage executes it and the other units do nothing, and Fetch hands over
an END latch. -/
theorem Lone.cycle (h : Lone s₀ i u s) (hr : LoneRun s₀ i) (hu : u ≠ .f)
    (hready : u = .drf → ∀ j, s.readV j = true)
    (hgo : ∀ a b : State, a.launch = s.launch → a.latch u = { s.latch u with isEmpty := false } →
      exec i { a with unit := u } = .next b → b.runState = a.runState) :
    ∃ a b t, WorkedCycle u i s a b t ∧ ∀ d, u.downstream = some d → Lone s₀ i d t := by
  have hc := h.cycleNext hr
  obtain ⟨-, hroom⟩ := room_of_launchOk (h.launchOk hr)
  obtain ⟨k, hk⟩ := runUnits_next backOrder s.beginCycle
  obtain ⟨us, vs, a, b, hin, hbefore, hafter, hkeep⟩ := working_unit hu hk fun v hv hvu => h.resting hv hvu
  have ha : a.runState = .running := hbefore.calm.runState.trans h.running
  have hp := hin.performs hu ha h.holds.1
  rw [show s.content (s.latch u) = .instr i from h.holds.2] at hp
  have hflag : Quiet a (a.setIsEmpty u false) := ⟨rfl, rfl, rfl, rfl, rfl, rfl, rfl, rfl, rfl⟩
  have hlatch : (a.setIsEmpty u false).latch u = { s.latch u with isEmpty := false } := by
    rw [latch_setIsEmpty, if_pos rfl, hin.latch]
  have hexec := exec_calm hr hp (hgo _ _ hin.launch hlatch hp)
  have hcalm : Calm s.beginCycle k := ((hbefore.trans hflag).calm.trans hexec).trans hafter.calm
  have hrun : k.runState = .running := hcalm.runState.trans h.running
  have hstall : k.L.drf.stalled = false := by
    refine unstalled_before_fetch hk hrun h.unstalled fun hf => ?_
    by_cases hdrf : u = .drf
    · subst hdrf
      exact .inr ⟨i, h.holds.2, hr.branch, hr.ne_halt, hready rfl, fun v hv hvu => h.resting hv hvu⟩
    · exact .inl (h.ends .drf nofun (Ne.symm hdrf) hf).2
  have hstalldrf : u = .drf → b.L.drf.stalled = false := by
    rintro rfl
    have hall : AllValid (a.setIsEmpty .drf false) (sourcesOf i) := fun r _ => by
      have hvalid := hready rfl (regSlot r)
      rwa [State.readV, ← show a.valid = s.valid from hbefore.valid] at hvalid
    obtain rfl := next_unique hp (decodeReadsValidSourcesAndAdvances i _ hr.branch hr.ne_halt hall)
    rfl
  have hframe := performContent_unitsFrame (.instr i) hp
  refine ⟨_, b, _, ⟨step_of_calm hc hk hcalm hstall h.pcOk, hp, hbefore.trans hflag, hin.launch, hlatch, hafter.x,
    hafter.valid, hafter.dmem, hafter.insCompleted, rfl, hrun, fun d hd => ?_⟩, fun d hd => ?_⟩
  · obtain ⟨hdf, hddrf⟩ := ne_front_of_downstream hd hu
    exact (afterFetch_latch k _ hdf hddrf).trans (hkeep d hd)
  · have hon := hin.handedOn hu hd hrun h.holds.1 hstalldrf
    have hwb : Stage.wb ∉ [u] := by rintro hw; cases List.mem_singleton.mp hw; cases hd
    refine h.next hd hu hroom hk hrun hstall ?_ ?_ ?_
    · constructor <;> rw [hkeep d hd]
      exacts [hon.pc, hon.fields, hon.done]
    · exact hafter.x.trans ((hframe.x hwb).trans hbefore.x)
    · exact hafter.insCompleted.trans ((hframe.insCompleted hwb).trans hbefore.insCompleted)

/-! ### Cycle by cycle -/

/-- The first cycle fetches the instruction: it stands in the latch of DRF, and nothing else is in flight (R122). -/
theorem lone_of_fetch (hr : LoneRun s₀ i) (hrun : s₀.runState = .running) (hempty : PipelineEmpty s₀)
    (hfetch : FetchesInstr s₀ i) (hlast : s₀.pc.toNat + 4 = s₀.endAddr) :
    ∃ t, step s₀ = .next t ∧ Lone s₀ i .drf t ∧ t.valid = s₀.valid ∧ t.dmem = s₀.dmem := by
  have hc : s₀.CycleNext := ⟨hrun, hr.ok, by have := hr.bound; omega⟩
  obtain ⟨hpos, hroom⟩ := room_of_launchOk hr.ok
  obtain ⟨hst, hfresh⟩ := hempty
  obtain ⟨hok, hin, hdecode⟩ := hfetch
  obtain ⟨k, hk⟩ := runUnits_next backOrder s₀.beginCycle
  have hrest : ∀ v ∈ backOrder, Resting s₀.beginCycle v := fun v hv hf =>
    absurd ((hfresh v (ne_of_mem_of_not_mem hv (by decide))).symm.trans hf) (by decide)
  have hquiet := runUnits_quiet (by decide) (by decide) hrest hk
  have hkrun : k.runState = .running := hquiet.calm.runState.trans hrun
  have hstall : k.L.drf.stalled = false := unstalled_before_fetch hk hkrun hst fun hf =>
    absurd ((hfresh .drf nofun).symm.trans hf) (by decide)
  refine ⟨_, step_of_calm hc hk hquiet.calm hstall hok, ?_, hquiet.valid, hquiet.dmem⟩
  have hframe := runUnits_unitsFrame hk
  have hlaunch : k.launch = s₀.launch := hframe.launch
  have himem : k.imem = s₀.imem := hframe.imem
  have hkpc : k.pc = s₀.pc := hframe.pc (by decide)
  have hend : k.endAddr = s₀.endAddr := endAddr_congr hlaunch himem
  obtain ⟨hpcnext, hoknext⟩ := next_address hok (show s₀.pc.toNat + 4 < 2 ^ 32 by omega)
  obtain ⟨hbase, -⟩ := (codeAddrOk_iff s₀ s₀.pc).mp hok
  have hfields : k.fetchedLatch.fields = splitWord (s₀.imemAt s₀.pc) := by
    rw [fetchedLatch_fields_in_program (by rw [hkpc, hend]; exact hin), hkpc, State.imemAt, State.imemAt, himem, hlaunch]
  constructor
  case launch => exact hlaunch
  case imem => exact himem
  case running => exact hkrun
  case clock => rfl
  case insCompleted => exact hquiet.insCompleted
  case x => exact hquiet.x
  case unstalled => rfl
  case holds =>
    constructor
    · have hne : k.pc ≠ 0 := by
        rw [hkpc]
        rintro hzero
        rw [hzero] at hbase
        exact absurd hbase (Nat.not_le.mpr hpos)
      have hf : Latch.fresh .drf { k.L.drf with pc := k.pc, done := some .f } = true := by
        simpa [Latch.fresh, Stage.upstream] using hne
      exact hf
    · refine content_of_ok (l := (afterFetch k k.fetchedLatch.fields).L.drf) ?_ ?_
      · change k.pc.toNat < k.endAddr
        rw [hkpc, hend]
        exact hin
      · exact hfields ▸ hdecode
  case ends =>
    intro v hv hdrf hf
    have hkv : (k.latch v).fresh v = true := (congrArg (Latch.fresh v) (afterFetch_latch k _ hv hdrf)).symm.trans hf
    obtain ⟨p, hp, -, hpf, -⟩ := fresh_before_fetch hk hkrun hstall hv hdrf hkv
    exact absurd ((hfresh p hp).symm.trans hpf) (by decide)
  case pcOk =>
    have hok : k.codeAddrOk (k.pc + 4) = true := by rwa [hkpc, codeAddrOk_congr hlaunch]
    exact hok
  case pc =>
    change (k.pc + 4).toNat + 4 = k.endAddr + 4 * 1
    rw [hkpc, hpcnext, hend]
    omega

/-- The display flag plays no part in what has been read (R120, R133). -/
theorem ReadFrom.of_isEmpty {l : Latch} {e : Bool} (h : ReadFrom s i l) : ReadFrom s i { l with isEmpty := e } := by
  have h : s.readLatch i l = l := h
  exact congrArg (fun l : Latch => { l with isEmpty := e }) h

/-- What DRF hands to EX1 has its sources read from the registers that DRF found (R120). -/
theorem readFrom_afterDrf (hx : a.x = s.x) (l : Latch) : ReadFrom s i (afterDrf a (a.readLatch i l)).L.ex1 := by
  have hread : a.readLatch i l = s.readLatch i l := by simp only [State.readLatch, State.readX, hx]
  rw [hread]
  cases i <;> rfl

/-- Nothing is released where every register is VALID. -/
theorem release_valid (h : ∀ j, s.readV j = true) (o : Option Reg) : (s.release o).valid = s.valid := by
  cases o with
  | none => rfl
  | some rd =>
    apply Vector.ext
    intro j hj
    have hj : s.valid[j] = true := h ⟨j, hj⟩
    simp [State.release, Vector.getElem_set, hj]

/-- DRF reads the sources of the instruction (R120). -/
theorem Lone.decoded (h : Lone s₀ i .drf s) (hr : LoneRun s₀ i) (hvalid : ∀ j, s.readV j = true) :
    ∃ t, step s = .next t ∧ Lone s₀ i .ex1 t ∧ t.valid = s.valid ∧ t.dmem = s.dmem ∧ ReadFrom s₀ i t.L.ex1 := by
  obtain ⟨a, b, t, hw, hnext⟩ := h.cycle hr nofun (fun _ => hvalid) fun a b _ _ he => (exec_run he nofun nofun).1
  have hall : AllValid a (sourcesOf i) := fun r _ => by
    have hv := hvalid (regSlot r)
    rwa [State.readV, ← show a.valid = s.valid from hw.before.valid] at hv
  have hx : a.x = s₀.x := hw.before.x.trans h.x
  obtain rfl := next_unique hw.exec (decodeReadsValidSourcesAndAdvances i a hr.branch hr.ne_halt hall)
  refine ⟨t, hw.step, hnext .ex1 rfl, hw.valid.trans hw.before.valid, hw.dmem.trans hw.before.dmem, ?_⟩
  have hlatch : t.L.ex1 = (afterDrf a (a.readLatch i a.L.drf)).L.ex1 := hw.handed .ex1 rfl
  exact hlatch ▸ readFrom_afterDrf hx a.L.drf

/-- EX1 claims the destination and computes what the rule says (R113). -/
theorem Lone.executed (h : Lone s₀ i .ex1 s) (hr : LoneRun s₀ i) (hread : ReadFrom s₀ i s.L.ex1) :
    ∃ t, step s = .next t ∧ Lone s₀ i .ex2 t ∧ t.valid = (s.claim i.dest).valid ∧ t.dmem = s.dmem ∧
      Carries s₀ i t.L.ex2 := by
  obtain ⟨a, b, t, hw, hnext⟩ := h.cycle hr nofun nofun fun a b _ _ he => (exec_run he nofun nofun).1
  have hlatch : a.L.ex1 = { s.L.ex1 with isEmpty := false } := hw.latch
  have hc : Carries s₀ i (a.L.ex1.computed i) := carries_computed (hlatch ▸ hread.of_isEmpty)
  obtain rfl := next_unique hw.exec (exec_in_ex1 i a)
  refine ⟨t, hw.step, hnext .ex2 rfl, hw.valid.trans (claim_valid_congr (s := s) hw.before.valid i.dest), ?_, ?_⟩
  · have hd : t.dmem = (a.claim i.dest).dmem := hw.dmem
    rw [claim_eq] at hd
    exact hd.trans hw.before.dmem
  · have ht : t.L.ex2 = _ := hw.handed .ex2 rfl
    rw [ht]
    exact ⟨hc.result, hc.address, hc.datum⟩

/-- EX2 passes the instruction on (R111). -/
theorem Lone.passed_ex2 (h : Lone s₀ i .ex2 s) (hr : LoneRun s₀ i) (hc : Carries s₀ i s.L.ex2) :
    ∃ t, step s = .next t ∧ Lone s₀ i .mem1 t ∧ t.valid = s.valid ∧ t.dmem = s.dmem ∧ Carries s₀ i t.L.mem1 := by
  obtain ⟨a, b, t, hw, hnext⟩ := h.cycle hr nofun nofun fun a b _ _ he => (exec_run he nofun nofun).1
  have hlatch : a.L.ex2 = { s.L.ex2 with isEmpty := false } := hw.latch
  obtain rfl := next_unique hw.exec (performContent_ex2_pass (c := .instr i) hr.branch hr.jump hr.halt a)
  refine ⟨t, hw.step, hnext .mem1 rfl, hw.valid.trans hw.before.valid, hw.dmem.trans hw.before.dmem, ?_⟩
  have ht : t.L.mem1 = { a.L.ex2 with done := some .ex2, isEmpty := a.L.mem1.isEmpty } := hw.handed .mem1 rfl
  rw [ht, hlatch]
  exact ⟨hc.result, hc.address, hc.datum⟩

/-- MEM1 passes the instruction on (R110). -/
theorem Lone.passed_mem1 (h : Lone s₀ i .mem1 s) (hr : LoneRun s₀ i) (hc : Carries s₀ i s.L.mem1) :
    ∃ t, step s = .next t ∧ Lone s₀ i .mem2 t ∧ t.valid = s.valid ∧ t.dmem = s.dmem ∧ Carries s₀ i t.L.mem2 := by
  obtain ⟨a, b, t, hw, hnext⟩ := h.cycle hr nofun nofun fun a b _ _ he => (exec_run he nofun nofun).1
  have hlatch : a.L.mem1 = { s.L.mem1 with isEmpty := false } := hw.latch
  obtain rfl := next_unique hw.exec (performContent_mem1 (.instr i) a)
  refine ⟨t, hw.step, hnext .mem2 rfl, hw.valid.trans hw.before.valid, hw.dmem.trans hw.before.dmem, ?_⟩
  have ht : t.L.mem2 = { a.L.mem1 with done := some .mem1, isEmpty := a.L.mem2.isEmpty } := hw.handed .mem2 rfl
  rw [ht, hlatch]
  exact ⟨hc.result, hc.address, hc.datum⟩

/-- MEM2 accesses the memory as the rule says and hands the result on (R109). -/
theorem Lone.accessed (h : Lone s₀ i .mem2 s) (hr : LoneRun s₀ i) (hc : Carries s₀ i s.L.mem2) (hdmem : s.dmem = s₀.dmem)
    (hrange : ∀ a, accessOf s₀ i = some a → a.toNat < s₀.launch.dmemCells) :
    ∃ t, step s = .next t ∧ Lone s₀ i .wb t ∧ t.valid = s.valid ∧ t.dmem = memoryAfter s₀ i ∧
      ∀ rd, i.dest = some rd → t.L.wb.buffer = resultOf s₀ i := by
  have hmem2 {a : State} (hl : a.launch = s.launch) (hlatch : a.latch .mem2 = { s.latch .mem2 with isEmpty := false }) :
      Carries s₀ i a.L.mem2 ∧
        exec i { a with unit := .mem2 } = .next (afterMem2 (a.stored i a.L.mem2) (a.loaded i a.L.mem2)) := by
    have hlatch : a.L.mem2 = { s.L.mem2 with isEmpty := false } := hlatch
    have hc : Carries s₀ i a.L.mem2 := hlatch ▸ ⟨hc.result, hc.address, hc.datum⟩
    refine ⟨hc, exec_in_mem2 ?_⟩
    rw [hl, h.launch]
    exact hc.in_range hrange
  obtain ⟨a, b, t, hw, hnext⟩ := h.cycle hr nofun nofun fun a b hl hlatch he => by
    obtain rfl := next_unique he (hmem2 hl hlatch).2
    rw [stored_eq]
    rfl
  obtain ⟨hc, hexec⟩ := hmem2 hw.launch hw.latch
  have ha : a.dmem = s₀.dmem := hw.before.dmem.trans hdmem
  obtain rfl := next_unique hw.exec hexec
  refine ⟨t, hw.step, hnext .wb rfl, ?_, hw.dmem.trans (hc.stored_dmem ha), fun rd hd => ?_⟩
  · have hv : t.valid = (a.stored i a.L.mem2).valid := hw.valid
    rw [stored_eq] at hv
    exact hv.trans hw.before.valid
  · have ht : t.L.wb = _ := hw.handed .wb rfl
    rw [ht]
    exact hc.loaded_buffer ha rd hd

/-- WB writes what the rule says, and counts (R105, R108). -/
theorem Lone.committed (h : Lone s₀ i .wb s) (hr : LoneRun s₀ i) (hv : s.valid = (s₀.claim i.dest).valid)
    (hb : ∀ rd, i.dest = some rd → s.L.wb.buffer = resultOf s₀ i) :
    ∃ t, step s = .next t ∧ t.x = (fileAfter s₀ i).x ∧ t.valid = (s₀.release i.dest).valid ∧ t.dmem = s.dmem ∧
      t.insCompleted = s₀.insCompleted + 1 ∧ t.clock = s₀.clock + 7 ∧ t.runState = .running := by
  obtain ⟨a, b, t, hw, -⟩ := h.cycle hr nofun nofun fun a b _ _ he => (exec_run he nofun nofun).1
  have hlatch : a.L.wb = { s.L.wb with isEmpty := false } := hw.latch
  obtain rfl := next_unique hw.exec (exec_in_wb i a)
  have hfile := wbFile_eq a i
  refine ⟨t, hw.step, hw.x.trans (wbFile_x (hw.before.x.trans h.x) fun rd hd => ?_),
    hw.valid.trans (wbFile_valid (hw.before.valid.trans hv)), ?_, ?_, ?_, hw.running⟩
  · rw [hlatch]
    exact hb rd hd
  · have hd : t.dmem = (a.wbFile i).dmem := hw.dmem
    rw [hfile] at hd
    exact hd.trans hw.before.dmem
  · have hcount : t.insCompleted = (a.wbFile i).insCompleted + 1 := hw.insCompleted
    rw [hfile] at hcount
    exact hcount.trans (congrArg (· + 1) (hw.before.insCompleted.trans h.insCompleted))
  · rw [hw.clock, h.clock]
    rfl

/-- Settles O47: the fetch and the six cycles after it. -/
theorem loneInstructionCompletesInSevenCycles : Obligations.LoneInstructionCompletesInSevenCycles := by
  unfold Obligations.LoneInstructionCompletesInSevenCycles
  intro i s hrun hok hbound hempty hvalid hfetch hlast hbranch hjump hhalt hrange
  have hr : LoneRun s i := ⟨hok, hbound, hbranch, hjump, hhalt⟩
  obtain ⟨s₁, h₁, l₁, v₁, d₁⟩ := lone_of_fetch hr hrun hempty hfetch hlast
  obtain ⟨s₂, h₂, l₂, v₂, d₂, hread⟩ := l₁.decoded hr fun j => by rw [State.readV, v₁]; exact hvalid j
  obtain ⟨s₃, h₃, l₃, v₃, d₃, c₃⟩ := l₂.executed hr hread
  obtain ⟨s₄, h₄, l₄, v₄, d₄, c₄⟩ := l₃.passed_ex2 hr c₃
  obtain ⟨s₅, h₅, l₅, v₅, d₅, c₅⟩ := l₄.passed_mem1 hr c₄
  obtain ⟨s₆, h₆, l₆, v₆, d₆, hb⟩ := l₅.accessed hr c₅ (by rw [d₅, d₄, d₃, d₂, d₁]) hrange
  have hclaimed : s₆.valid = (s.claim i.dest).valid := by
    rw [v₆, v₅, v₄, v₃]
    exact claim_valid_congr (v₂.trans v₁) _
  obtain ⟨t, h₇, hx, hv, hd, hcount, hclock, hrun⟩ := l₆.committed hr hclaimed hb
  refine ⟨t, ⟨s₁, h₁, s₂, h₂, s₃, h₃, s₄, h₄, s₅, h₅, s₆, h₆, t, h₇, rfl⟩, hx,
    hv.trans (release_valid hvalid _), hd.trans d₆, hcount, hclock, hrun⟩

end Sys2Proof.Machine
